-- ==== Sys2Proof/Word.lean ====
section
/-! DEFINITION. The two word types of the block (00_scope.md R6, R11): bytes of 8 bits and addresses of 16 bits.
Their arithmetic is `BitVec`'s, which wraps at the width as R12 asks. -/

namespace Sys2Proof

/-- `u8` (R11): a register, a flag byte, a memory byte, an operand byte. -/
abbrev Byte := BitVec 8

/-- `u16` (R11): an address or a program-counter value. -/
abbrev Addr := BitVec 16

end Sys2Proof
end

