-- ==== Sys2Proof/Machine/Bits.lean ====
section
/-! DEFINITION. Bit fields, byte order and extension (00_scope.md R11, R12). -/

namespace Sys2Proof

/-- `hi8(w) = w[15:8]` (R11). -/
def hi8 (w : Addr) : Byte := w.extractLsb' 8 8

/-- `lo8(w) = w[7:0]` (R11). -/
def lo8 (w : Addr) : Byte := w.extractLsb' 0 8

/-- The concatenation `{h, l}` (R11): the word whose high byte is `h` (R54). -/
def joinBytes (h l : Byte) : Addr := h ++ l

/-- `{0x00, z}`: a one-byte address widened to the zero page (R84). -/
def zeroPageAddr (z : Byte) : Addr := joinBytes 0 z

/-- `sext8(b)` as a 16-bit addend (R12, R84). -/
def sext8 (b : Byte) : Addr := b.signExtend 16

/-- Bit 7 of a byte, the source's `bit7` (R11). -/
def bit7 (v : Byte) : Bool := v.getLsbD 7

end Sys2Proof
end

