-- ==== Sys2Proof/Syntax.lean ====
section
/-! DEFINITION. The instructions: one constructor per row of spec/opcode_table.json (30_encoding.md R88),
named by mnemonic and addressing-mode format, with the operand bytes of R82 as its field. Bits are pulled out
of the encoding by the decoder once; the machine never sees raw bytes. -/

namespace Sys2Proof

/-- An instruction (R80, R81). `imm8` is an operand value, `zp8` a zero-page address or base, `rel8` a branch
offset before sign extension, `addr` the little-endian word of an absolute mode, `ptr` the address of a pointer.
`BRK` has no field: the byte it skips is never read (R91, R242). -/
inductive Instr where
  -- ADC, R150
  | adcImm (imm8 : Byte)
  | adcZp (zp8 : Byte)
  | adcZpX (zp8 : Byte)
  | adcAbs (addr : Addr)
  | adcAbsX (addr : Addr)
  | adcAbsY (addr : Addr)
  | adcIndX (zp8 : Byte)
  | adcIndY (zp8 : Byte)
  -- AND, R152
  | andImm (imm8 : Byte)
  | andZp (zp8 : Byte)
  | andZpX (zp8 : Byte)
  | andAbs (addr : Addr)
  | andAbsX (addr : Addr)
  | andAbsY (addr : Addr)
  | andIndX (zp8 : Byte)
  | andIndY (zp8 : Byte)
  -- ASL, R197
  | aslAcc
  | aslZp (zp8 : Byte)
  | aslZpX (zp8 : Byte)
  | aslAbs (addr : Addr)
  | aslAbsX (addr : Addr)
  -- BCC, R215
  | bcc (rel8 : Byte)
  -- BCS, R216
  | bcs (rel8 : Byte)
  -- BEQ, R217
  | beq (rel8 : Byte)
  -- BIT, R158
  | bitZp (zp8 : Byte)
  | bitAbs (addr : Addr)
  -- BMI, R219
  | bmi (rel8 : Byte)
  -- BNE, R218
  | bne (rel8 : Byte)
  -- BPL, R220
  | bpl (rel8 : Byte)
  -- BRK, R242
  | brk
  -- BVC, R221
  | bvc (rel8 : Byte)
  -- BVS, R222
  | bvs (rel8 : Byte)
  -- CLC, R234
  | clc
  -- CLD, R238
  | cld
  -- CLI, R236
  | cli
  -- CLV, R240
  | clv
  -- CMP, R155
  | cmpImm (imm8 : Byte)
  | cmpZp (zp8 : Byte)
  | cmpZpX (zp8 : Byte)
  | cmpAbs (addr : Addr)
  | cmpAbsX (addr : Addr)
  | cmpAbsY (addr : Addr)
  | cmpIndX (zp8 : Byte)
  | cmpIndY (zp8 : Byte)
  -- CPX, R156
  | cpxImm (imm8 : Byte)
  | cpxZp (zp8 : Byte)
  | cpxAbs (addr : Addr)
  -- CPY, R157
  | cpyImm (imm8 : Byte)
  | cpyZp (zp8 : Byte)
  | cpyAbs (addr : Addr)
  -- DEC, R192
  | decZp (zp8 : Byte)
  | decZpX (zp8 : Byte)
  | decAbs (addr : Addr)
  | decAbsX (addr : Addr)
  -- DEX, R195
  | dex
  -- DEY, R196
  | dey
  -- EOR, R154
  | eorImm (imm8 : Byte)
  | eorZp (zp8 : Byte)
  | eorZpX (zp8 : Byte)
  | eorAbs (addr : Addr)
  | eorAbsX (addr : Addr)
  | eorAbsY (addr : Addr)
  | eorIndX (zp8 : Byte)
  | eorIndY (zp8 : Byte)
  -- INC, R191
  | incZp (zp8 : Byte)
  | incZpX (zp8 : Byte)
  | incAbs (addr : Addr)
  | incAbsX (addr : Addr)
  -- INX, R193
  | inx
  -- INY, R194
  | iny
  -- JMP, R210
  | jmpAbs (addr : Addr)
  | jmpInd (ptr : Addr)
  -- JSR, R212
  | jsr (addr : Addr)
  -- LDA, R170
  | ldaImm (imm8 : Byte)
  | ldaZp (zp8 : Byte)
  | ldaZpX (zp8 : Byte)
  | ldaAbs (addr : Addr)
  | ldaAbsX (addr : Addr)
  | ldaAbsY (addr : Addr)
  | ldaIndX (zp8 : Byte)
  | ldaIndY (zp8 : Byte)
  -- LDX, R171
  | ldxImm (imm8 : Byte)
  | ldxZp (zp8 : Byte)
  | ldxZpY (zp8 : Byte)
  | ldxAbs (addr : Addr)
  | ldxAbsY (addr : Addr)
  -- LDY, R172
  | ldyImm (imm8 : Byte)
  | ldyZp (zp8 : Byte)
  | ldyZpX (zp8 : Byte)
  | ldyAbs (addr : Addr)
  | ldyAbsX (addr : Addr)
  -- LSR, R198
  | lsrAcc
  | lsrZp (zp8 : Byte)
  | lsrZpX (zp8 : Byte)
  | lsrAbs (addr : Addr)
  | lsrAbsX (addr : Addr)
  -- NOP, R241
  | nop
  -- ORA, R153
  | oraImm (imm8 : Byte)
  | oraZp (zp8 : Byte)
  | oraZpX (zp8 : Byte)
  | oraAbs (addr : Addr)
  | oraAbsX (addr : Addr)
  | oraAbsY (addr : Addr)
  | oraIndX (zp8 : Byte)
  | oraIndY (zp8 : Byte)
  -- PHA, R230
  | pha
  -- PHP, R231
  | php
  -- PLA, R232
  | pla
  -- PLP, R233
  | plp
  -- ROL, R199
  | rolAcc
  | rolZp (zp8 : Byte)
  | rolZpX (zp8 : Byte)
  | rolAbs (addr : Addr)
  | rolAbsX (addr : Addr)
  -- ROR, R200
  | rorAcc
  | rorZp (zp8 : Byte)
  | rorZpX (zp8 : Byte)
  | rorAbs (addr : Addr)
  | rorAbsX (addr : Addr)
  -- RTI, R243
  | rti
  -- RTS, R213
  | rts
  -- SBC, R151
  | sbcImm (imm8 : Byte)
  | sbcZp (zp8 : Byte)
  | sbcZpX (zp8 : Byte)
  | sbcAbs (addr : Addr)
  | sbcAbsX (addr : Addr)
  | sbcAbsY (addr : Addr)
  | sbcIndX (zp8 : Byte)
  | sbcIndY (zp8 : Byte)
  -- SEC, R235
  | sec
  -- SED, R239
  | sed
  -- SEI, R237
  | sei
  -- STA, R173
  | staZp (zp8 : Byte)
  | staZpX (zp8 : Byte)
  | staAbs (addr : Addr)
  | staAbsX (addr : Addr)
  | staAbsY (addr : Addr)
  | staIndX (zp8 : Byte)
  | staIndY (zp8 : Byte)
  -- STX, R174
  | stxZp (zp8 : Byte)
  | stxZpY (zp8 : Byte)
  | stxAbs (addr : Addr)
  -- STY, R175
  | styZp (zp8 : Byte)
  | styZpX (zp8 : Byte)
  | styAbs (addr : Addr)
  -- TAX, R176
  | tax
  -- TAY, R177
  | tay
  -- TSX, R180
  | tsx
  -- TXA, R178
  | txa
  -- TXS, R181
  | txs
  -- TYA, R179
  | tya
  deriving DecidableEq, Repr

end Sys2Proof
end

