-- ==== Sys2Proof/Machine/Forms.lean ====
section
/-! DEFINITION. What an instruction is made of: its operation (one of the 56 mnemonics), its addressing-mode format
(30_encoding.md R81) and its operand. The two maps at the end read them off a constructor of `Instr`. -/

namespace Sys2Proof

/-- The 56 operations, by mnemonic (R88). -/
inductive Operation where
  | adc | and | asl | bcc | bcs | beq | bit | bmi | bne | bpl | brk | bvc | bvs | clc | cld | cli | clv | cmp | cpx
  | cpy | dec | dex | dey | eor | inc | inx | iny | jmp | jsr | lda | ldx | ldy | lsr | nop | ora | pha | php | pla
  | plp | rol | ror | rti | rts | sbc | sec | sed | sei | sta | stx | sty | tax | tay | tsx | txa | txs | tya
  deriving DecidableEq, Repr

/-- The thirteen addressing-mode tags (R81). -/
inductive Mode where
  | implied | accumulator | immediate | zeroPage | zeroPageX | zeroPageY | absolute | absoluteX | absoluteY
  | indirectX | indirectY | indirect | relative
  deriving DecidableEq, Repr

/-- The length in bytes of an instruction of each format, its opcode included (R82). -/
def Mode.length : Mode → Nat
  | .implied | .accumulator => 1
  | .immediate | .zeroPage | .zeroPageX | .zeroPageY | .relative | .indirectX | .indirectY => 2
  | .absolute | .absoluteX | .absoluteY | .indirect => 3

/-- An operand that lies in memory, with its operand bytes: the eight modes that yield the effective address of a
data byte (R126 to R132). -/
inductive MemOperand where
  | zp (z : Byte) | zpX (z : Byte) | zpY (z : Byte)
  | abs (w : Addr) | absX (w : Addr) | absY (w : Addr)
  | indX (z : Byte) | indY (z : Byte)
  deriving DecidableEq, Repr

/-- What a reading instruction reads: its own immediate byte or a byte of memory (R125, R135). -/
inductive Source where
  | imm (v : Byte)
  | mem (m : MemOperand)
  deriving DecidableEq, Repr

/-- The operand field of an instruction in any format (R82). -/
inductive Operand where
  | implied
  | accumulator
  | source (src : Source)
  | indirect (ptr : Addr)
  | relative (off : Byte)
  deriving DecidableEq, Repr

/-- The format of a memory operand. -/
def MemOperand.mode : MemOperand → Mode
  | .zp _ => .zeroPage
  | .zpX _ => .zeroPageX
  | .zpY _ => .zeroPageY
  | .abs _ => .absolute
  | .absX _ => .absoluteX
  | .absY _ => .absoluteY
  | .indX _ => .indirectX
  | .indY _ => .indirectY

/-- The format of a source operand. -/
def Source.mode : Source → Mode
  | .imm _ => .immediate
  | .mem m => m.mode

/-- The format of an operand (R81). -/
def Operand.mode : Operand → Mode
  | .implied => .implied
  | .accumulator => .accumulator
  | .source src => src.mode
  | .indirect _ => .indirect
  | .relative _ => .relative

/-- The two operand bytes of a word, low byte first (R54, R82). -/
def wordBytes (w : Addr) : List Byte := [lo8 w, hi8 w]

/-- The operand bytes of a memory operand as they follow the opcode (R82). -/
def MemOperand.bytes : MemOperand → List Byte
  | .zp z | .zpX z | .zpY z | .indX z | .indY z => [z]
  | .abs w | .absX w | .absY w => wordBytes w

/-- The operand bytes of any operand as they follow the opcode (R82). -/
def Operand.bytes : Operand → List Byte
  | .implied | .accumulator => []
  | .source (.imm v) => [v]
  | .source (.mem m) => m.bytes
  | .indirect w => wordBytes w
  | .relative off => [off]

/-- The operation of an instruction (R85: the descriptor's `operation`). -/
def Instr.operation : Instr → Operation
  | .adcImm _ => .adc
  | .adcZp _ => .adc
  | .adcZpX _ => .adc
  | .adcAbs _ => .adc
  | .adcAbsX _ => .adc
  | .adcAbsY _ => .adc
  | .adcIndX _ => .adc
  | .adcIndY _ => .adc
  | .andImm _ => .and
  | .andZp _ => .and
  | .andZpX _ => .and
  | .andAbs _ => .and
  | .andAbsX _ => .and
  | .andAbsY _ => .and
  | .andIndX _ => .and
  | .andIndY _ => .and
  | .aslAcc => .asl
  | .aslZp _ => .asl
  | .aslZpX _ => .asl
  | .aslAbs _ => .asl
  | .aslAbsX _ => .asl
  | .bcc _ => .bcc
  | .bcs _ => .bcs
  | .beq _ => .beq
  | .bitZp _ => .bit
  | .bitAbs _ => .bit
  | .bmi _ => .bmi
  | .bne _ => .bne
  | .bpl _ => .bpl
  | .brk => .brk
  | .bvc _ => .bvc
  | .bvs _ => .bvs
  | .clc => .clc
  | .cld => .cld
  | .cli => .cli
  | .clv => .clv
  | .cmpImm _ => .cmp
  | .cmpZp _ => .cmp
  | .cmpZpX _ => .cmp
  | .cmpAbs _ => .cmp
  | .cmpAbsX _ => .cmp
  | .cmpAbsY _ => .cmp
  | .cmpIndX _ => .cmp
  | .cmpIndY _ => .cmp
  | .cpxImm _ => .cpx
  | .cpxZp _ => .cpx
  | .cpxAbs _ => .cpx
  | .cpyImm _ => .cpy
  | .cpyZp _ => .cpy
  | .cpyAbs _ => .cpy
  | .decZp _ => .dec
  | .decZpX _ => .dec
  | .decAbs _ => .dec
  | .decAbsX _ => .dec
  | .dex => .dex
  | .dey => .dey
  | .eorImm _ => .eor
  | .eorZp _ => .eor
  | .eorZpX _ => .eor
  | .eorAbs _ => .eor
  | .eorAbsX _ => .eor
  | .eorAbsY _ => .eor
  | .eorIndX _ => .eor
  | .eorIndY _ => .eor
  | .incZp _ => .inc
  | .incZpX _ => .inc
  | .incAbs _ => .inc
  | .incAbsX _ => .inc
  | .inx => .inx
  | .iny => .iny
  | .jmpAbs _ => .jmp
  | .jmpInd _ => .jmp
  | .jsr _ => .jsr
  | .ldaImm _ => .lda
  | .ldaZp _ => .lda
  | .ldaZpX _ => .lda
  | .ldaAbs _ => .lda
  | .ldaAbsX _ => .lda
  | .ldaAbsY _ => .lda
  | .ldaIndX _ => .lda
  | .ldaIndY _ => .lda
  | .ldxImm _ => .ldx
  | .ldxZp _ => .ldx
  | .ldxZpY _ => .ldx
  | .ldxAbs _ => .ldx
  | .ldxAbsY _ => .ldx
  | .ldyImm _ => .ldy
  | .ldyZp _ => .ldy
  | .ldyZpX _ => .ldy
  | .ldyAbs _ => .ldy
  | .ldyAbsX _ => .ldy
  | .lsrAcc => .lsr
  | .lsrZp _ => .lsr
  | .lsrZpX _ => .lsr
  | .lsrAbs _ => .lsr
  | .lsrAbsX _ => .lsr
  | .nop => .nop
  | .oraImm _ => .ora
  | .oraZp _ => .ora
  | .oraZpX _ => .ora
  | .oraAbs _ => .ora
  | .oraAbsX _ => .ora
  | .oraAbsY _ => .ora
  | .oraIndX _ => .ora
  | .oraIndY _ => .ora
  | .pha => .pha
  | .php => .php
  | .pla => .pla
  | .plp => .plp
  | .rolAcc => .rol
  | .rolZp _ => .rol
  | .rolZpX _ => .rol
  | .rolAbs _ => .rol
  | .rolAbsX _ => .rol
  | .rorAcc => .ror
  | .rorZp _ => .ror
  | .rorZpX _ => .ror
  | .rorAbs _ => .ror
  | .rorAbsX _ => .ror
  | .rti => .rti
  | .rts => .rts
  | .sbcImm _ => .sbc
  | .sbcZp _ => .sbc
  | .sbcZpX _ => .sbc
  | .sbcAbs _ => .sbc
  | .sbcAbsX _ => .sbc
  | .sbcAbsY _ => .sbc
  | .sbcIndX _ => .sbc
  | .sbcIndY _ => .sbc
  | .sec => .sec
  | .sed => .sed
  | .sei => .sei
  | .staZp _ => .sta
  | .staZpX _ => .sta
  | .staAbs _ => .sta
  | .staAbsX _ => .sta
  | .staAbsY _ => .sta
  | .staIndX _ => .sta
  | .staIndY _ => .sta
  | .stxZp _ => .stx
  | .stxZpY _ => .stx
  | .stxAbs _ => .stx
  | .styZp _ => .sty
  | .styZpX _ => .sty
  | .styAbs _ => .sty
  | .tax => .tax
  | .tay => .tay
  | .tsx => .tsx
  | .txa => .txa
  | .txs => .txs
  | .tya => .tya

/-- The operand of an instruction, in its format (R82, R88). -/
def Instr.operand : Instr → Operand
  | .adcImm imm8 => .source (.imm imm8)
  | .adcZp zp8 => .source (.mem (.zp zp8))
  | .adcZpX zp8 => .source (.mem (.zpX zp8))
  | .adcAbs addr => .source (.mem (.abs addr))
  | .adcAbsX addr => .source (.mem (.absX addr))
  | .adcAbsY addr => .source (.mem (.absY addr))
  | .adcIndX zp8 => .source (.mem (.indX zp8))
  | .adcIndY zp8 => .source (.mem (.indY zp8))
  | .andImm imm8 => .source (.imm imm8)
  | .andZp zp8 => .source (.mem (.zp zp8))
  | .andZpX zp8 => .source (.mem (.zpX zp8))
  | .andAbs addr => .source (.mem (.abs addr))
  | .andAbsX addr => .source (.mem (.absX addr))
  | .andAbsY addr => .source (.mem (.absY addr))
  | .andIndX zp8 => .source (.mem (.indX zp8))
  | .andIndY zp8 => .source (.mem (.indY zp8))
  | .aslAcc => .accumulator
  | .aslZp zp8 => .source (.mem (.zp zp8))
  | .aslZpX zp8 => .source (.mem (.zpX zp8))
  | .aslAbs addr => .source (.mem (.abs addr))
  | .aslAbsX addr => .source (.mem (.absX addr))
  | .bcc rel8 => .relative rel8
  | .bcs rel8 => .relative rel8
  | .beq rel8 => .relative rel8
  | .bitZp zp8 => .source (.mem (.zp zp8))
  | .bitAbs addr => .source (.mem (.abs addr))
  | .bmi rel8 => .relative rel8
  | .bne rel8 => .relative rel8
  | .bpl rel8 => .relative rel8
  | .brk => .implied
  | .bvc rel8 => .relative rel8
  | .bvs rel8 => .relative rel8
  | .clc => .implied
  | .cld => .implied
  | .cli => .implied
  | .clv => .implied
  | .cmpImm imm8 => .source (.imm imm8)
  | .cmpZp zp8 => .source (.mem (.zp zp8))
  | .cmpZpX zp8 => .source (.mem (.zpX zp8))
  | .cmpAbs addr => .source (.mem (.abs addr))
  | .cmpAbsX addr => .source (.mem (.absX addr))
  | .cmpAbsY addr => .source (.mem (.absY addr))
  | .cmpIndX zp8 => .source (.mem (.indX zp8))
  | .cmpIndY zp8 => .source (.mem (.indY zp8))
  | .cpxImm imm8 => .source (.imm imm8)
  | .cpxZp zp8 => .source (.mem (.zp zp8))
  | .cpxAbs addr => .source (.mem (.abs addr))
  | .cpyImm imm8 => .source (.imm imm8)
  | .cpyZp zp8 => .source (.mem (.zp zp8))
  | .cpyAbs addr => .source (.mem (.abs addr))
  | .decZp zp8 => .source (.mem (.zp zp8))
  | .decZpX zp8 => .source (.mem (.zpX zp8))
  | .decAbs addr => .source (.mem (.abs addr))
  | .decAbsX addr => .source (.mem (.absX addr))
  | .dex => .implied
  | .dey => .implied
  | .eorImm imm8 => .source (.imm imm8)
  | .eorZp zp8 => .source (.mem (.zp zp8))
  | .eorZpX zp8 => .source (.mem (.zpX zp8))
  | .eorAbs addr => .source (.mem (.abs addr))
  | .eorAbsX addr => .source (.mem (.absX addr))
  | .eorAbsY addr => .source (.mem (.absY addr))
  | .eorIndX zp8 => .source (.mem (.indX zp8))
  | .eorIndY zp8 => .source (.mem (.indY zp8))
  | .incZp zp8 => .source (.mem (.zp zp8))
  | .incZpX zp8 => .source (.mem (.zpX zp8))
  | .incAbs addr => .source (.mem (.abs addr))
  | .incAbsX addr => .source (.mem (.absX addr))
  | .inx => .implied
  | .iny => .implied
  | .jmpAbs addr => .source (.mem (.abs addr))
  | .jmpInd ptr => .indirect ptr
  | .jsr addr => .source (.mem (.abs addr))
  | .ldaImm imm8 => .source (.imm imm8)
  | .ldaZp zp8 => .source (.mem (.zp zp8))
  | .ldaZpX zp8 => .source (.mem (.zpX zp8))
  | .ldaAbs addr => .source (.mem (.abs addr))
  | .ldaAbsX addr => .source (.mem (.absX addr))
  | .ldaAbsY addr => .source (.mem (.absY addr))
  | .ldaIndX zp8 => .source (.mem (.indX zp8))
  | .ldaIndY zp8 => .source (.mem (.indY zp8))
  | .ldxImm imm8 => .source (.imm imm8)
  | .ldxZp zp8 => .source (.mem (.zp zp8))
  | .ldxZpY zp8 => .source (.mem (.zpY zp8))
  | .ldxAbs addr => .source (.mem (.abs addr))
  | .ldxAbsY addr => .source (.mem (.absY addr))
  | .ldyImm imm8 => .source (.imm imm8)
  | .ldyZp zp8 => .source (.mem (.zp zp8))
  | .ldyZpX zp8 => .source (.mem (.zpX zp8))
  | .ldyAbs addr => .source (.mem (.abs addr))
  | .ldyAbsX addr => .source (.mem (.absX addr))
  | .lsrAcc => .accumulator
  | .lsrZp zp8 => .source (.mem (.zp zp8))
  | .lsrZpX zp8 => .source (.mem (.zpX zp8))
  | .lsrAbs addr => .source (.mem (.abs addr))
  | .lsrAbsX addr => .source (.mem (.absX addr))
  | .nop => .implied
  | .oraImm imm8 => .source (.imm imm8)
  | .oraZp zp8 => .source (.mem (.zp zp8))
  | .oraZpX zp8 => .source (.mem (.zpX zp8))
  | .oraAbs addr => .source (.mem (.abs addr))
  | .oraAbsX addr => .source (.mem (.absX addr))
  | .oraAbsY addr => .source (.mem (.absY addr))
  | .oraIndX zp8 => .source (.mem (.indX zp8))
  | .oraIndY zp8 => .source (.mem (.indY zp8))
  | .pha => .implied
  | .php => .implied
  | .pla => .implied
  | .plp => .implied
  | .rolAcc => .accumulator
  | .rolZp zp8 => .source (.mem (.zp zp8))
  | .rolZpX zp8 => .source (.mem (.zpX zp8))
  | .rolAbs addr => .source (.mem (.abs addr))
  | .rolAbsX addr => .source (.mem (.absX addr))
  | .rorAcc => .accumulator
  | .rorZp zp8 => .source (.mem (.zp zp8))
  | .rorZpX zp8 => .source (.mem (.zpX zp8))
  | .rorAbs addr => .source (.mem (.abs addr))
  | .rorAbsX addr => .source (.mem (.absX addr))
  | .rti => .implied
  | .rts => .implied
  | .sbcImm imm8 => .source (.imm imm8)
  | .sbcZp zp8 => .source (.mem (.zp zp8))
  | .sbcZpX zp8 => .source (.mem (.zpX zp8))
  | .sbcAbs addr => .source (.mem (.abs addr))
  | .sbcAbsX addr => .source (.mem (.absX addr))
  | .sbcAbsY addr => .source (.mem (.absY addr))
  | .sbcIndX zp8 => .source (.mem (.indX zp8))
  | .sbcIndY zp8 => .source (.mem (.indY zp8))
  | .sec => .implied
  | .sed => .implied
  | .sei => .implied
  | .staZp zp8 => .source (.mem (.zp zp8))
  | .staZpX zp8 => .source (.mem (.zpX zp8))
  | .staAbs addr => .source (.mem (.abs addr))
  | .staAbsX addr => .source (.mem (.absX addr))
  | .staAbsY addr => .source (.mem (.absY addr))
  | .staIndX zp8 => .source (.mem (.indX zp8))
  | .staIndY zp8 => .source (.mem (.indY zp8))
  | .stxZp zp8 => .source (.mem (.zp zp8))
  | .stxZpY zp8 => .source (.mem (.zpY zp8))
  | .stxAbs addr => .source (.mem (.abs addr))
  | .styZp zp8 => .source (.mem (.zp zp8))
  | .styZpX zp8 => .source (.mem (.zpX zp8))
  | .styAbs addr => .source (.mem (.abs addr))
  | .tax => .implied
  | .tay => .implied
  | .tsx => .implied
  | .txa => .implied
  | .txs => .implied
  | .tya => .implied

/-- The length of an instruction in bytes (R82, R83). -/
def Instr.length (i : Instr) : Nat := i.operand.mode.length

end Sys2Proof
end

