-- ==== Sys2Proof/Config.lean ====
section
/-! DEFINITION. What the block fixes (00_scope.md R6), what the model names where the spec leaves a parameter open,
and the one free value. -/

namespace Sys2Proof

/-- `STACK_BASE` (R6, 90_conflicts.md C4): the high byte of every stack address (R24). -/
def Config.stackPage : Byte := 0x01

/-- The reset vector, low byte at 0xFFFC (R6, R41). -/
def Config.resetVector : Addr := 0xFFFC

/-- The interrupt vector, "consumed by BRK", low byte at 0xFFFE (R6, R265). -/
def Config.breakVector : Addr := 0xFFFE

/-- `RESET_CYCLES` (R6, R291): a constant for the host's own bookkeeping, in no `Execute` total. -/
def Config.resetCycles : Nat := 7

/-- The largest `cycle_budget` that has a meaning (R110). -/
def Config.maxBudget : Int := 2 ^ 63 - 8

/-- `RESET_S` (R6, R41; 92_eei_decisions.md D6: OPEN). DESIGN CHOICE, unsafe, log entry 2: the value of the spec's
test vectors. Only `State.reset` uses it; the `Reset` operation takes the parameter as an argument. -/
def Config.resetS : Byte := 0xFF

/-- What a byte of memory that nothing has written reads as. DESIGN CHOICE, unsafe, log entry 1: the contents the
memory's own `reset()` leaves (R7). -/
def Config.unlistedByte : Byte := 0x00

/-- The `op` argument of `DecimalArith` (R146). -/
inductive DecimalOp where
  | add | sub
  deriving DecidableEq, Repr

/-- A result byte with its flags: what the adders return (R141, R146). -/
structure AdderOut where
  r : Byte
  c : Bool
  n : Bool
  v : Bool
  z : Bool
  deriving DecidableEq, Repr, Inhabited

/-- The part of `DecimalArith` that the spec leaves open (R146; 92_eei_decisions.md D11): a FREE VALUE, a function of
the operands with no body. Log entry 3. A claim about it holds for every function. -/
opaque Config.decimalArith (op : DecimalOp) (a m : Byte) (cin : Bool) : AdderOut

end Sys2Proof
end

