-- ==== Sys2Proof/Machine/State.lean ====
section
/-! DEFINITION. The state of the block, and the memory beside it (10_state.md R20; 20_memory.md R50). -/

namespace Sys2Proof.Machine

/-- The status register `P`: "8 independent single-bit flags" (R20, R27). Its packing as a byte is
`Status.toByte`. -/
structure Status where
  /-- `N`, negative, bit 7 (R36). -/
  n : Bool
  /-- `V`, overflow, bit 6 (R35). -/
  v : Bool
  /-- `U`, the unused flag, bit 5 (R34): host-visible only, no instruction writes it. -/
  u : Bool
  /-- `B`, break, bit 4 (R33): host-visible only, no instruction writes it. -/
  b : Bool
  /-- `D`, decimal mode, bit 3 (R32). -/
  d : Bool
  /-- `I`, interrupt disable, bit 2 (R31): stored, with no effect on execution. -/
  i : Bool
  /-- `Z`, zero, bit 1 (R30). -/
  z : Bool
  /-- `C`, carry, bit 0 (R29). -/
  c : Bool
  deriving DecidableEq, Repr

/-- All eight flags 0 (R41). -/
def Status.clear : Status := ⟨false, false, false, false, false, false, false, false⟩

/-- The memory (R50): the bytes that differ from what an unlisted address reads as, by rising address. -/
abbrev Memory := List Host.Cell

/-- The cells lie at strictly rising addresses from `lo` on, below 65536, and none holds what an unlisted address
reads as. -/
def Memory.wfFrom : Nat → Memory → Bool
  | _, [] => true
  | lo, (k, v) :: m => decide (lo ≤ k) && decide (k < 65536) && decide (v ≠ Config.unlistedByte) && Memory.wfFrom (k + 1) m

/-- The canonical form of a memory: two memories of this form that read alike are equal. -/
def Memory.wf (m : Memory) : Bool := Memory.wfFrom 0 m

/-- The state of the machine: the six registers of R20 and the memory the host supplies (R50). Nothing else persists
between steps (R20, R38, R39). -/
structure State where
  /-- `A`, the accumulator (R21). -/
  a : Byte
  /-- `X`, an index register (R22). -/
  x : Byte
  /-- `Y`, an index register (R23). -/
  y : Byte
  /-- `S`, the stack index: the next free slot of the stack page (R24). -/
  sp : Byte
  /-- `PC`, the program counter: at a step boundary the address of the next opcode (R25). -/
  pc : Addr
  /-- `P`, the status register (R27). -/
  p : Status
  /-- The 64 KiB memory (R50). -/
  mem : Memory
  deriving DecidableEq, Repr

/-- Why the machine stops. -/
inductive Fault where
  /-- UndefinedOpcode (R260): the byte at PC has no descriptor (R90). Raised by `step` at decode and by nothing else;
  it carries the address and the byte (92_eei_decisions.md D13). Safe: the spec names this error, and no state is
  written. -/
  | undefinedOpcode (addr : Addr) (byte : Byte)
  deriving DecidableEq, Repr

/-- What the model gives no meaning to. -/
inductive Refusal where
  /-- An instruction without a meaning yet. Raised by no arm of `exec`: every instruction has its meaning. Safe. -/
  | notModelled (mnemonic : String)
  /-- A `cycle_budget` above 2^63 - 8, raised by `execute` and never by a step (R110: "a model refuses them").
  Safe. -/
  | budgetTooLarge
  /-- An image whose loading the spec leaves undecided: shorter than two bytes, over the reset vector, or past
  0xFFFF. Raised by `loadImage` and never by a step (R296, 92_eei_decisions.md D18). Safe. -/
  | imageUndecided
  deriving DecidableEq, Repr

/-- The machine right after `Reset` (R41, R290), with a memory that lists nothing: A, X, Y and every flag 0, S the
value `Config.resetS` (log entry 2), PC the word at the reset vector, whose two unlisted bytes read 0x00 (log
entries 1 and 4). -/
def State.reset : State :=
  { a := 0x00, x := 0x00, y := 0x00, sp := Config.resetS, pc := 0x0000, p := Status.clear, mem := [] }

end Sys2Proof.Machine
end

