-- ==== Sys2Proof/Machine/Flags.lean ====
section
/-! DEFINITION. The flag computer and the ALU: pure functions of operands and flags (10_state.md R27 to R37;
42_alu_flags_arith_logic.md R140 to R149; 44_inc_dec_shift_rotate.md R197 to R200). -/

namespace Sys2Proof.Machine

/-- `P` as a byte: `{N, V, U, B, D, I, Z, C}` (R28). -/
def Status.toByte (p : Status) : Byte :=
  BitVec.ofBool p.n ++ BitVec.ofBool p.v ++ BitVec.ofBool p.u ++ BitVec.ofBool p.b ++
  BitVec.ofBool p.d ++ BitVec.ofBool p.i ++ BitVec.ofBool p.z ++ BitVec.ofBool p.c

/-- The byte that PHP and BRK push: `P | 0x30`, bits 5 and 4 set whatever the live U and B are (R231, R242). -/
def Status.pushed (p : Status) : Byte := p.toByte ||| 0x30

/-- What PLP and RTI make of a popped byte: N, V, D, I, Z, C from it, U and B as they were (R233, R243). -/
def Status.pulled (p : Status) (v : Byte) : Status :=
  { p with n := v.getLsbD 7, v := v.getLsbD 6, d := v.getLsbD 3, i := v.getLsbD 2, z := v.getLsbD 1, c := v.getLsbD 0 }

/-- `SetZN(v)` (R140). -/
def Status.setZN (p : Status) (v : Byte) : Status := { p with z := v == 0, n := bit7 v }

/-- `AddBinary(a, m, cin)` (R141), with N and Z of its result (R140). -/
def addBinary (a m : Byte) (cin : Bool) : AdderOut :=
  let sum := a.toNat + m.toNat + cin.toNat
  let r := BitVec.ofNat 8 sum
  { r := r
    c := decide (sum > 0xFF)
    n := bit7 r
    v := (~~~(a ^^^ m) &&& (a ^^^ r)) &&& 0x80 != 0
    z := r == 0 }

/-- `SubBinary(a, m, cin)` (R143): the addition of the complemented operand. -/
def subBinary (a m : Byte) (cin : Bool) : AdderOut := addBinary a (~~~m) cin

/-- The two digits of a byte. -/
def highDigit (b : Byte) : Nat := b.toNat / 16

/-- The low digit of a byte. -/
def lowDigit (b : Byte) : Nat := b.toNat % 16

/-- Both nibbles are 0..9 (R15, R145). -/
def validBcd (b : Byte) : Bool := decide (highDigit b ≤ 9) && decide (lowDigit b ≤ 9)

/-- `dec(b)` (R145). -/
def decOfBcd (b : Byte) : Nat := 10 * highDigit b + lowDigit b

/-- `bcd(n)` (R145), for n in 0..99. -/
def bcdOfDec (n : Nat) : Byte := BitVec.ofNat 8 (16 * (n / 10) + n % 10)

/-- The fixed part of decimal ADC: result and carry on valid BCD (R145). -/
def decimalAdd (a m : Byte) (cin : Bool) : Byte × Bool :=
  let s := decOfBcd a + decOfBcd m + cin.toNat
  (bcdOfDec (s % 100), decide (s > 99))

/-- The fixed part of decimal SBC: result and carry on valid BCD (R145). -/
def decimalSub (a m : Byte) (cin : Bool) : Byte × Bool :=
  let d : Int := (decOfBcd a : Int) - decOfBcd m - (1 - cin.toNat)
  (bcdOfDec (d % 100).toNat, decide (d ≥ 0))

/-- Result and carry that R145 fixes. -/
def decimalFixed : DecimalOp → Byte → Byte → Bool → Byte × Bool
  | .add, a, m, cin => decimalAdd a m cin
  | .sub, a, m, cin => decimalSub a m cin

/-- `DecimalArith(op, a, m, cin)` (R146): result and carry by R145 on valid BCD, everything else the free value. -/
def decimalArith (op : DecimalOp) (a m : Byte) (cin : Bool) : AdderOut :=
  let free := Config.decimalArith op a m cin
  if validBcd a && validBcd m then
    { free with r := (decimalFixed op a m cin).1, c := (decimalFixed op a m cin).2 }
  else free

/-- `DecimalArithDefault(add, …)` (R146): the spec's own instance for simulators and test vectors. The machine does
not use it. -/
def decimalDefaultAdd (a m : Byte) (cin : Bool) : AdderOut :=
  let al0 := a.toNat % 16 + m.toNat % 16 + cin.toNat
  let al := if al0 ≥ 0x0A then (al0 + 0x06) % 16 + 0x10 else al0
  let t0 := (a.toNat - a.toNat % 16) + (m.toNat - m.toNat % 16) + al
  let t := if t0 ≥ 0xA0 then t0 + 0x60 else t0
  let r := BitVec.ofNat 8 t
  { r := r, c := decide (t ≥ 0x100), n := bit7 r, v := (addBinary a m cin).v, z := r == 0 }

/-- `DecimalArithDefault(sub, …)` (R146). The machine does not use it. -/
def decimalDefaultSub (a m : Byte) (cin : Bool) : AdderOut :=
  let al0 : Int := (a.toNat % 16 : Nat) - (m.toNat % 16 : Nat) + cin.toNat - 1
  let al : Int := if al0 < 0 then (al0 - 0x06) % 16 - 0x10 else al0
  let t0 : Int := (a.toNat - a.toNat % 16 : Nat) - (m.toNat - m.toNat % 16 : Nat) + al
  let t : Int := if t0 < 0 then t0 - 0x60 else t0
  let r := BitVec.ofInt 8 t
  { r := r, c := (subBinary a m cin).c, n := bit7 r, v := (subBinary a m cin).v, z := r == 0 }

/-- `DecimalArithDefault` (R146). -/
def decimalDefault : DecimalOp → Byte → Byte → Bool → AdderOut
  | .add, a, m, cin => decimalDefaultAdd a m cin
  | .sub, a, m, cin => decimalDefaultSub a m cin

/-- What ADC computes (R150): the decimal path exactly when D is 1 (R144). -/
def adcOut (a m : Byte) (p : Status) : AdderOut := if p.d then decimalArith .add a m p.c else addBinary a m p.c

/-- What SBC computes (R151): the decimal path exactly when D is 1 (R144). -/
def sbcOut (a m : Byte) (p : Status) : AdderOut := if p.d then decimalArith .sub a m p.c else subBinary a m p.c

/-- The flags an addition or subtraction writes: N, V, Z, C (R37). -/
def Status.setAdder (p : Status) (o : AdderOut) : Status := { p with n := o.n, v := o.v, z := o.z, c := o.c }

/-- `Compare(reg, m)` (R147): C, Z, N from the 8-bit difference; the old C is not read. -/
def Status.compare (p : Status) (reg m : Byte) : Status :=
  { p with c := decide (reg.toNat ≥ m.toNat), z := reg - m == 0, n := bit7 (reg - m) }

/-- The flags of BIT (R158): Z from the and, N and V from the operand itself. -/
def Status.bitTest (p : Status) (a m : Byte) : Status :=
  { p with z := a &&& m == 0, n := m.getLsbD 7, v := m.getLsbD 6 }

/-- A one-bit shift of a byte with the carry in: the result and the bit shifted out. -/
abbrev Shifter := Byte → Bool → Byte × Bool

/-- ASL (R197). -/
def aslByte : Shifter := fun v _ => (v <<< 1, v.getLsbD 7)

/-- LSR (R198). -/
def lsrByte : Shifter := fun v _ => (v >>> 1, v.getLsbD 0)

/-- ROL (R199): the old carry enters at bit 0. -/
def rolByte : Shifter := fun v c0 => (v <<< 1 ||| (BitVec.ofBool c0).zeroExtend 8, v.getLsbD 7)

/-- ROR (R200): the old carry enters at bit 7. -/
def rorByte : Shifter := fun v c0 => (v >>> 1 ||| (BitVec.ofBool c0).zeroExtend 8 <<< 7, v.getLsbD 0)

/-- The flags of a shift or rotate (R197 to R200): C the bit shifted out, Z and N from the result. -/
def Status.shifted (p : Status) (out : Byte × Bool) : Status := { p.setZN out.1 with c := out.2 }

end Sys2Proof.Machine
end

