-- ==== Sys2Proof/Machine/Ops.lean ====
section
/-! DEFINITION. The named operations over memory and registers: reads and writes of bytes and words, the stack
primitives (20_memory.md R50 to R63), the break trap and its return (60_exceptions.md R265, R267), and the `Reset`
entry point (70_reset_and_hazards.md R290). -/

namespace Sys2Proof.Machine

/-- The byte listed at address `k`, or what an unlisted address reads as. -/
def Memory.readByte : Memory → Nat → Byte
  | [], _ => Config.unlistedByte
  | (k', v) :: m, k => if k' = k then v else Memory.readByte m k

/-- The memory with the entry of `k` taken out. -/
def Memory.unlist (m : Memory) (k : Nat) : Memory := m.filter fun cell => cell.1 != k

/-- The memory with the entry `(k, v)` put at its place. -/
def Memory.enlist : Memory → Nat → Byte → Memory
  | [], k, v => [(k, v)]
  | (k', v') :: m, k, v =>
    if k < k' then (k, v) :: (k', v') :: m
    else if k = k' then (k, v) :: m
    else (k', v') :: Memory.enlist m k v

/-- Write a byte, keeping the canonical form: a byte equal to what an unlisted address reads as is not listed. -/
def Memory.writeByte (m : Memory) (k : Nat) (v : Byte) : Memory :=
  if v = Config.unlistedByte then Memory.unlist m k else Memory.enlist m k v

/-- `MemRead(addr, 1)` (R13, R57). -/
def State.read (s : State) (addr : Addr) : Byte := Memory.readByte s.mem addr.toNat

/-- `MemWrite(addr, 1, v)` (R13, R57). -/
def State.write (s : State) (addr : Addr) (v : Byte) : State := { s with mem := Memory.writeByte s.mem addr.toNat v }

/-- `MemRead(addr, 2)` (R13, R53, R54): low byte at the lower address, the second address wrapping. -/
def State.read16 (s : State) (addr : Addr) : Addr := joinBytes (s.read (addr + 1)) (s.read addr)

/-- `ZpRead16(p)` (R63): the high byte's address wraps inside the zero page. -/
def State.zpRead16 (s : State) (z : Byte) : Addr := joinBytes (s.read (zeroPageAddr (z + 1))) (s.read (zeroPageAddr z))

/-- The pointer read of `JMP (Indirect)` (R133): the high byte's address wraps inside the pointer's page. -/
def State.pageRead16 (s : State) (ptr : Addr) : Addr :=
  joinBytes (s.read (joinBytes (hi8 ptr) (lo8 ptr + 1))) (s.read ptr)

/-- PC moved past the `n` bytes of the instruction (R25, R26, R56). -/
def State.advance (s : State) (n : Nat) : State := { s with pc := s.pc + BitVec.ofNat 16 n }

/-- The address of the stack slot that the index `i` designates: `0x0100 + i` (R24). -/
def stackAddr (i : Byte) : Addr := joinBytes Config.stackPage i

/-- `Push8(v)` (R58): write at `0x0100 + S`, then decrement. -/
def State.push8 (s : State) (v : Byte) : State := { s.write (stackAddr s.sp) v with sp := s.sp - 1 }

/-- `Push16(w)` (R60): high byte first. -/
def State.push16 (s : State) (w : Addr) : State := (s.push8 (hi8 w)).push8 (lo8 w)

/-- `Pop8()` (R59): increment, then read at `0x0100 + S`. -/
def State.pop8 (s : State) : Byte × State := (s.read (stackAddr (s.sp + 1)), { s with sp := s.sp + 1 })

/-- `Pop16()` (R61): low byte first. -/
def State.pop16 (s : State) : Addr × State :=
  let l := s.pop8
  let h := l.2.pop8
  (joinBytes h.1 l.1, h.2)

/-- TAKING THE TRAP (R265): stack the return address and then the status of before with bits 5 and 4 set, set I,
and load PC from the interrupt vector, read after the pushes. No other live flag changes. -/
def State.enterTrap (s : State) (ret : Addr) : State :=
  let s1 := (s.push16 ret).push8 s.p.pushed
  { s1 with p := { s1.p with i := true }, pc := s1.read16 Config.breakVector }

/-- THE RETURN FROM THE TRAP (R267): pop the status, keeping the live U and B, then pop PC with no adjustment. -/
def State.returnFromTrap (s : State) : State :=
  let st := s.pop8
  let ret := st.2.pop16
  { ret.2 with p := s.p.pulled st.1, pc := ret.1 }

/-- `Reset` (R290, R41), with the open parameter `RESET_S` as its argument: registers and flags 0, S set, PC from the
reset vector, memory as it is. It does not depend on the registers before it. -/
def State.resetEntry (resetS : Byte) (s : State) : State :=
  { a := 0x00, x := 0x00, y := 0x00, sp := resetS, pc := s.read16 Config.resetVector, p := Status.clear, mem := s.mem }

end Sys2Proof.Machine
end

