-- ==== Sys2Proof/Machine/Operands.lean ====
section
/-! DEFINITION. The address resolver: effective addresses, page crossings and operand values of the addressing modes
(41_addressing_modes.md R120 to R135). The operand bytes are already in the instruction (log entry 5), so nothing here
writes PC. -/

namespace Sys2Proof.Machine

/-- The address an index is added to: the operand word, or for `(zp),Y` the pointer read in the zero page; for the
other modes, which add no index to a 16-bit base, the effective address itself (R126 to R132). -/
def baseAddr (m : MemOperand) (s : State) : Addr :=
  match m with
  | .zp z => zeroPageAddr z
  | .zpX z => zeroPageAddr (z + s.x)
  | .zpY z => zeroPageAddr (z + s.y)
  | .abs w => w
  | .absX w => w
  | .absY w => w
  | .indX z => s.zpRead16 (z + s.x)
  | .indY z => s.zpRead16 z

/-- The index register added to the base, as a 16-bit addend: X for AbsoluteX, Y for AbsoluteY and IndirectY (R129,
R130, R132), nothing for the others. -/
def baseIndex (m : MemOperand) (s : State) : Addr :=
  match m with
  | .absX _ => s.x.zeroExtend 16
  | .absY _ => s.y.zeroExtend 16
  | .indY _ => s.y.zeroExtend 16
  | .zp _ | .zpX _ | .zpY _ | .abs _ | .indX _ => 0

/-- The effective address `ea` (R120): base plus index, wrapping mod 65536. -/
def effAddr (m : MemOperand) (s : State) : Addr := baseAddr m s + baseIndex m s

/-- `crossed` (R121): the index addition changed the high byte. -/
def pageCrossed (m : MemOperand) (s : State) : Bool := hi8 (effAddr m s) != hi8 (baseAddr m s)

/-- The operand value of a reading instruction (R135): the immediate byte, or the byte at the effective address. -/
def sourceValue (src : Source) (s : State) : Byte :=
  match src with
  | .imm v => v
  | .mem m => s.read (effAddr m s)

/-- `crossed` of a source; Immediate never crosses (R125). -/
def sourceCrossed (src : Source) (s : State) : Bool :=
  match src with
  | .imm _ => false
  | .mem m => pageCrossed m s

/-- The target of a branch (R134): the address of the next instruction plus the signed offset. -/
def branchTarget (s : State) (off : Byte) : Addr := s.pc + 2 + sext8 off

/-- `bcross` (R134): the target lies in another page than the next instruction. -/
def branchCrossed (s : State) (off : Byte) : Bool := hi8 (branchTarget s off) != hi8 (s.pc + 2)

end Sys2Proof.Machine
end

