-- ==== Sys2Proof/Machine/Arith.lean ====
section
/-! DEFINITION. Add and subtract (42_alu_flags_arith_logic.md R144, R150, R151). -/

namespace Sys2Proof.Machine

/-- ADC (R150): A and N, V, Z, C from the adder. -/
def addWithCarry (src : Source) (s : State) : State :=
  let out := adcOut s.a (sourceValue src s) s.p
  { s.advance src.mode.length with a := out.r, p := s.p.setAdder out }

/-- SBC (R151): A and N, V, Z, C from the subtractor. -/
def subWithCarry (src : Source) (s : State) : State :=
  let out := sbcOut s.a (sourceValue src s) s.p
  { s.advance src.mode.length with a := out.r, p := s.p.setAdder out }

/-- `ADC #$nn`, opcode 69 (R150). -/
def execAdcImm (imm8 : Byte) (s : State) : Host.Outcome State Fault Refusal :=
  .next (addWithCarry (.imm imm8) s)

/-- `ADC $nn`, opcode 65 (R150). -/
def execAdcZp (zp8 : Byte) (s : State) : Host.Outcome State Fault Refusal :=
  .next (addWithCarry (.mem (.zp zp8)) s)

/-- `ADC $nn,X`, opcode 75 (R150). -/
def execAdcZpX (zp8 : Byte) (s : State) : Host.Outcome State Fault Refusal :=
  .next (addWithCarry (.mem (.zpX zp8)) s)

/-- `ADC $hhll`, opcode 6D (R150). -/
def execAdcAbs (addr : Addr) (s : State) : Host.Outcome State Fault Refusal :=
  .next (addWithCarry (.mem (.abs addr)) s)

/-- `ADC $hhll,X`, opcode 7D (R150). -/
def execAdcAbsX (addr : Addr) (s : State) : Host.Outcome State Fault Refusal :=
  .next (addWithCarry (.mem (.absX addr)) s)

/-- `ADC $hhll,Y`, opcode 79 (R150). -/
def execAdcAbsY (addr : Addr) (s : State) : Host.Outcome State Fault Refusal :=
  .next (addWithCarry (.mem (.absY addr)) s)

/-- `ADC ($nn,X)`, opcode 61 (R150). -/
def execAdcIndX (zp8 : Byte) (s : State) : Host.Outcome State Fault Refusal :=
  .next (addWithCarry (.mem (.indX zp8)) s)

/-- `ADC ($nn),Y`, opcode 71 (R150). -/
def execAdcIndY (zp8 : Byte) (s : State) : Host.Outcome State Fault Refusal :=
  .next (addWithCarry (.mem (.indY zp8)) s)

/-- `SBC #$nn`, opcode E9 (R151). -/
def execSbcImm (imm8 : Byte) (s : State) : Host.Outcome State Fault Refusal :=
  .next (subWithCarry (.imm imm8) s)

/-- `SBC $nn`, opcode E5 (R151). -/
def execSbcZp (zp8 : Byte) (s : State) : Host.Outcome State Fault Refusal :=
  .next (subWithCarry (.mem (.zp zp8)) s)

/-- `SBC $nn,X`, opcode F5 (R151). -/
def execSbcZpX (zp8 : Byte) (s : State) : Host.Outcome State Fault Refusal :=
  .next (subWithCarry (.mem (.zpX zp8)) s)

/-- `SBC $hhll`, opcode ED (R151). -/
def execSbcAbs (addr : Addr) (s : State) : Host.Outcome State Fault Refusal :=
  .next (subWithCarry (.mem (.abs addr)) s)

/-- `SBC $hhll,X`, opcode FD (R151). -/
def execSbcAbsX (addr : Addr) (s : State) : Host.Outcome State Fault Refusal :=
  .next (subWithCarry (.mem (.absX addr)) s)

/-- `SBC $hhll,Y`, opcode F9 (R151). -/
def execSbcAbsY (addr : Addr) (s : State) : Host.Outcome State Fault Refusal :=
  .next (subWithCarry (.mem (.absY addr)) s)

/-- `SBC ($nn,X)`, opcode E1 (R151). -/
def execSbcIndX (zp8 : Byte) (s : State) : Host.Outcome State Fault Refusal :=
  .next (subWithCarry (.mem (.indX zp8)) s)

/-- `SBC ($nn),Y`, opcode F1 (R151). -/
def execSbcIndY (zp8 : Byte) (s : State) : Host.Outcome State Fault Refusal :=
  .next (subWithCarry (.mem (.indY zp8)) s)

end Sys2Proof.Machine
end

