-- ==== Sys2Proof/Machine/Branch.lean ====
section
/-! DEFINITION. The eight conditional branches (45_control_flow.md R214 to R222). No flag changes. -/

namespace Sys2Proof.Machine

/-- The common rule of the branches (R214): to the target when the condition holds, else to the next instruction. -/
def branchIf (cond : Bool) (off : Byte) (s : State) : State :=
  { s with pc := if cond then branchTarget s off else s.pc + 2 }

/-- `BCC label`, opcode 90 (R215). -/
def execBcc (rel8 : Byte) (s : State) : Host.Outcome State Fault Refusal :=
  .next (branchIf (!s.p.c) rel8 s)

/-- `BCS label`, opcode B0 (R216). -/
def execBcs (rel8 : Byte) (s : State) : Host.Outcome State Fault Refusal :=
  .next (branchIf s.p.c rel8 s)

/-- `BEQ label`, opcode F0 (R217). -/
def execBeq (rel8 : Byte) (s : State) : Host.Outcome State Fault Refusal :=
  .next (branchIf s.p.z rel8 s)

/-- `BMI label`, opcode 30 (R219). -/
def execBmi (rel8 : Byte) (s : State) : Host.Outcome State Fault Refusal :=
  .next (branchIf s.p.n rel8 s)

/-- `BNE label`, opcode D0 (R218). -/
def execBne (rel8 : Byte) (s : State) : Host.Outcome State Fault Refusal :=
  .next (branchIf (!s.p.z) rel8 s)

/-- `BPL label`, opcode 10 (R220). -/
def execBpl (rel8 : Byte) (s : State) : Host.Outcome State Fault Refusal :=
  .next (branchIf (!s.p.n) rel8 s)

/-- `BVC label`, opcode 50 (R221). -/
def execBvc (rel8 : Byte) (s : State) : Host.Outcome State Fault Refusal :=
  .next (branchIf (!s.p.v) rel8 s)

/-- `BVS label`, opcode 70 (R222). -/
def execBvs (rel8 : Byte) (s : State) : Host.Outcome State Fault Refusal :=
  .next (branchIf s.p.v rel8 s)

end Sys2Proof.Machine
end

