-- ==== Sys2Proof/Machine/Compare.lean ====
section
/-! DEFINITION. Compares and the bit test (42_alu_flags_arith_logic.md R147, R155 to R158). -/

namespace Sys2Proof.Machine

/-- CMP, CPX, CPY (R147): flags from `reg - m`; no register is written. -/
def compareOp (reg : Byte) (src : Source) (s : State) : State :=
  { s.advance src.mode.length with p := s.p.compare reg (sourceValue src s) }

/-- BIT (R158): "BIT does not touch A". -/
def bitTestOp (src : Source) (s : State) : State :=
  { s.advance src.mode.length with p := s.p.bitTest s.a (sourceValue src s) }

/-- `BIT $nn`, opcode 24 (R158). -/
def execBitZp (zp8 : Byte) (s : State) : Host.Outcome State Fault Refusal :=
  .next (bitTestOp (.mem (.zp zp8)) s)

/-- `BIT $hhll`, opcode 2C (R158). -/
def execBitAbs (addr : Addr) (s : State) : Host.Outcome State Fault Refusal :=
  .next (bitTestOp (.mem (.abs addr)) s)

/-- `CMP #$nn`, opcode C9 (R155). -/
def execCmpImm (imm8 : Byte) (s : State) : Host.Outcome State Fault Refusal :=
  .next (compareOp s.a (.imm imm8) s)

/-- `CMP $nn`, opcode C5 (R155). -/
def execCmpZp (zp8 : Byte) (s : State) : Host.Outcome State Fault Refusal :=
  .next (compareOp s.a (.mem (.zp zp8)) s)

/-- `CMP $nn,X`, opcode D5 (R155). -/
def execCmpZpX (zp8 : Byte) (s : State) : Host.Outcome State Fault Refusal :=
  .next (compareOp s.a (.mem (.zpX zp8)) s)

/-- `CMP $hhll`, opcode CD (R155). -/
def execCmpAbs (addr : Addr) (s : State) : Host.Outcome State Fault Refusal :=
  .next (compareOp s.a (.mem (.abs addr)) s)

/-- `CMP $hhll,X`, opcode DD (R155). -/
def execCmpAbsX (addr : Addr) (s : State) : Host.Outcome State Fault Refusal :=
  .next (compareOp s.a (.mem (.absX addr)) s)

/-- `CMP $hhll,Y`, opcode D9 (R155). -/
def execCmpAbsY (addr : Addr) (s : State) : Host.Outcome State Fault Refusal :=
  .next (compareOp s.a (.mem (.absY addr)) s)

/-- `CMP ($nn,X)`, opcode C1 (R155). -/
def execCmpIndX (zp8 : Byte) (s : State) : Host.Outcome State Fault Refusal :=
  .next (compareOp s.a (.mem (.indX zp8)) s)

/-- `CMP ($nn),Y`, opcode D1 (R155). -/
def execCmpIndY (zp8 : Byte) (s : State) : Host.Outcome State Fault Refusal :=
  .next (compareOp s.a (.mem (.indY zp8)) s)

/-- `CPX #$nn`, opcode E0 (R156). -/
def execCpxImm (imm8 : Byte) (s : State) : Host.Outcome State Fault Refusal :=
  .next (compareOp s.x (.imm imm8) s)

/-- `CPX $nn`, opcode E4 (R156). -/
def execCpxZp (zp8 : Byte) (s : State) : Host.Outcome State Fault Refusal :=
  .next (compareOp s.x (.mem (.zp zp8)) s)

/-- `CPX $hhll`, opcode EC (R156). -/
def execCpxAbs (addr : Addr) (s : State) : Host.Outcome State Fault Refusal :=
  .next (compareOp s.x (.mem (.abs addr)) s)

/-- `CPY #$nn`, opcode C0 (R157). -/
def execCpyImm (imm8 : Byte) (s : State) : Host.Outcome State Fault Refusal :=
  .next (compareOp s.y (.imm imm8) s)

/-- `CPY $nn`, opcode C4 (R157). -/
def execCpyZp (zp8 : Byte) (s : State) : Host.Outcome State Fault Refusal :=
  .next (compareOp s.y (.mem (.zp zp8)) s)

/-- `CPY $hhll`, opcode CC (R157). -/
def execCpyAbs (addr : Addr) (s : State) : Host.Outcome State Fault Refusal :=
  .next (compareOp s.y (.mem (.abs addr)) s)

end Sys2Proof.Machine
end

