-- ==== Sys2Proof/Machine/FlagOps.lean ====
section
/-! DEFINITION. The flag instructions and NOP (46_stack_flags_system.md R234 to R241). -/

namespace Sys2Proof.Machine



/-- `CLC`, opcode 18 (R234). -/
def execClc (s : State) : Host.Outcome State Fault Refusal :=
  .next { s.advance 1 with p := { s.p with c := false } }

/-- `CLD`, opcode D8 (R238). -/
def execCld (s : State) : Host.Outcome State Fault Refusal :=
  .next { s.advance 1 with p := { s.p with d := false } }

/-- `CLI`, opcode 58 (R236). -/
def execCli (s : State) : Host.Outcome State Fault Refusal :=
  .next { s.advance 1 with p := { s.p with i := false } }

/-- `CLV`, opcode B8 (R240). -/
def execClv (s : State) : Host.Outcome State Fault Refusal :=
  .next { s.advance 1 with p := { s.p with v := false } }

/-- `NOP`, opcode EA (R241). -/
def execNop (s : State) : Host.Outcome State Fault Refusal :=
  .next (s.advance 1)

/-- `SEC`, opcode 38 (R235). -/
def execSec (s : State) : Host.Outcome State Fault Refusal :=
  .next { s.advance 1 with p := { s.p with c := true } }

/-- `SED`, opcode F8 (R239). -/
def execSed (s : State) : Host.Outcome State Fault Refusal :=
  .next { s.advance 1 with p := { s.p with d := true } }

/-- `SEI`, opcode 78 (R237). -/
def execSei (s : State) : Host.Outcome State Fault Refusal :=
  .next { s.advance 1 with p := { s.p with i := true } }

end Sys2Proof.Machine
end

