-- ==== Sys2Proof/Machine/IncDec.lean ====
section
/-! DEFINITION. Increments and decrements (44_inc_dec_shift_rotate.md R190 to R196): N and Z only, wrapping. -/

namespace Sys2Proof.Machine

/-- INC and DEC on memory (R190): one read and one write at the same address. -/
def incDecMem (f : Byte → Byte) (m : MemOperand) (s : State) : State :=
  let r := f (s.read (effAddr m s))
  { (s.advance m.mode.length).write (effAddr m s) r with p := s.p.setZN r }

/-- `DEC $nn`, opcode C6 (R192). -/
def execDecZp (zp8 : Byte) (s : State) : Host.Outcome State Fault Refusal :=
  .next (incDecMem (· - 1) (.zp zp8) s)

/-- `DEC $nn,X`, opcode D6 (R192). -/
def execDecZpX (zp8 : Byte) (s : State) : Host.Outcome State Fault Refusal :=
  .next (incDecMem (· - 1) (.zpX zp8) s)

/-- `DEC $hhll`, opcode CE (R192). -/
def execDecAbs (addr : Addr) (s : State) : Host.Outcome State Fault Refusal :=
  .next (incDecMem (· - 1) (.abs addr) s)

/-- `DEC $hhll,X`, opcode DE (R192). -/
def execDecAbsX (addr : Addr) (s : State) : Host.Outcome State Fault Refusal :=
  .next (incDecMem (· - 1) (.absX addr) s)

/-- `DEX`, opcode CA (R195). -/
def execDex (s : State) : Host.Outcome State Fault Refusal :=
  .next { s.advance 1 with x := s.x - 1, p := s.p.setZN (s.x - 1) }

/-- `DEY`, opcode 88 (R196). -/
def execDey (s : State) : Host.Outcome State Fault Refusal :=
  .next { s.advance 1 with y := s.y - 1, p := s.p.setZN (s.y - 1) }

/-- `INC $nn`, opcode E6 (R191). -/
def execIncZp (zp8 : Byte) (s : State) : Host.Outcome State Fault Refusal :=
  .next (incDecMem (· + 1) (.zp zp8) s)

/-- `INC $nn,X`, opcode F6 (R191). -/
def execIncZpX (zp8 : Byte) (s : State) : Host.Outcome State Fault Refusal :=
  .next (incDecMem (· + 1) (.zpX zp8) s)

/-- `INC $hhll`, opcode EE (R191). -/
def execIncAbs (addr : Addr) (s : State) : Host.Outcome State Fault Refusal :=
  .next (incDecMem (· + 1) (.abs addr) s)

/-- `INC $hhll,X`, opcode FE (R191). -/
def execIncAbsX (addr : Addr) (s : State) : Host.Outcome State Fault Refusal :=
  .next (incDecMem (· + 1) (.absX addr) s)

/-- `INX`, opcode E8 (R193). -/
def execInx (s : State) : Host.Outcome State Fault Refusal :=
  .next { s.advance 1 with x := s.x + 1, p := s.p.setZN (s.x + 1) }

/-- `INY`, opcode C8 (R194). -/
def execIny (s : State) : Host.Outcome State Fault Refusal :=
  .next { s.advance 1 with y := s.y + 1, p := s.p.setZN (s.y + 1) }

end Sys2Proof.Machine
end

