-- ==== Sys2Proof/Machine/Jump.lean ====
section
/-! DEFINITION. Jumps and subroutines (45_control_flow.md R210 to R213). No flag changes. -/

namespace Sys2Proof.Machine

/-- JMP (R210). -/
def jumpTo (target : Addr) (s : State) : State := { s with pc := target }

/-- JSR (R212): stack the address of the last byte of the instruction, then jump. -/
def callTo (target : Addr) (s : State) : State := { s.push16 (s.pc + 2) with pc := target }

/-- RTS (R213): pop the address and add 1. -/
def returnFromCall (s : State) : State :=
  let ret := s.pop16
  { ret.2 with pc := ret.1 + 1 }

/-- `JMP $hhll`, opcode 4C (R210). -/
def execJmpAbs (addr : Addr) (s : State) : Host.Outcome State Fault Refusal :=
  .next (jumpTo (effAddr (.abs addr) s) s)

/-- `JMP ($hhll)`, opcode 6C (R210). -/
def execJmpInd (ptr : Addr) (s : State) : Host.Outcome State Fault Refusal :=
  .next (jumpTo (s.pageRead16 ptr) s)

/-- `JSR $hhll`, opcode 20 (R212). -/
def execJsr (addr : Addr) (s : State) : Host.Outcome State Fault Refusal :=
  .next (callTo (effAddr (.abs addr) s) s)

/-- `RTS`, opcode 60 (R213). -/
def execRts (s : State) : Host.Outcome State Fault Refusal :=
  .next (returnFromCall s)

end Sys2Proof.Machine
end

