-- ==== Sys2Proof/Machine/Load.lean ====
section
/-! DEFINITION. Loads (43_load_store_transfer.md R170 to R172). -/

namespace Sys2Proof.Machine

/-- LDA (R170). -/
def loadA (src : Source) (s : State) : State :=
  let v := sourceValue src s
  { s.advance src.mode.length with a := v, p := s.p.setZN v }

/-- LDX (R171). -/
def loadX (src : Source) (s : State) : State :=
  let v := sourceValue src s
  { s.advance src.mode.length with x := v, p := s.p.setZN v }

/-- LDY (R172). -/
def loadY (src : Source) (s : State) : State :=
  let v := sourceValue src s
  { s.advance src.mode.length with y := v, p := s.p.setZN v }

/-- `LDA #$nn`, opcode A9 (R170). -/
def execLdaImm (imm8 : Byte) (s : State) : Host.Outcome State Fault Refusal :=
  .next (loadA (.imm imm8) s)

/-- `LDA $nn`, opcode A5 (R170). -/
def execLdaZp (zp8 : Byte) (s : State) : Host.Outcome State Fault Refusal :=
  .next (loadA (.mem (.zp zp8)) s)

/-- `LDA $nn,X`, opcode B5 (R170). -/
def execLdaZpX (zp8 : Byte) (s : State) : Host.Outcome State Fault Refusal :=
  .next (loadA (.mem (.zpX zp8)) s)

/-- `LDA $hhll`, opcode AD (R170). -/
def execLdaAbs (addr : Addr) (s : State) : Host.Outcome State Fault Refusal :=
  .next (loadA (.mem (.abs addr)) s)

/-- `LDA $hhll,X`, opcode BD (R170). -/
def execLdaAbsX (addr : Addr) (s : State) : Host.Outcome State Fault Refusal :=
  .next (loadA (.mem (.absX addr)) s)

/-- `LDA $hhll,Y`, opcode B9 (R170). -/
def execLdaAbsY (addr : Addr) (s : State) : Host.Outcome State Fault Refusal :=
  .next (loadA (.mem (.absY addr)) s)

/-- `LDA ($nn,X)`, opcode A1 (R170). -/
def execLdaIndX (zp8 : Byte) (s : State) : Host.Outcome State Fault Refusal :=
  .next (loadA (.mem (.indX zp8)) s)

/-- `LDA ($nn),Y`, opcode B1 (R170). -/
def execLdaIndY (zp8 : Byte) (s : State) : Host.Outcome State Fault Refusal :=
  .next (loadA (.mem (.indY zp8)) s)

/-- `LDX #$nn`, opcode A2 (R171). -/
def execLdxImm (imm8 : Byte) (s : State) : Host.Outcome State Fault Refusal :=
  .next (loadX (.imm imm8) s)

/-- `LDX $nn`, opcode A6 (R171). -/
def execLdxZp (zp8 : Byte) (s : State) : Host.Outcome State Fault Refusal :=
  .next (loadX (.mem (.zp zp8)) s)

/-- `LDX $nn,Y`, opcode B6 (R171). -/
def execLdxZpY (zp8 : Byte) (s : State) : Host.Outcome State Fault Refusal :=
  .next (loadX (.mem (.zpY zp8)) s)

/-- `LDX $hhll`, opcode AE (R171). -/
def execLdxAbs (addr : Addr) (s : State) : Host.Outcome State Fault Refusal :=
  .next (loadX (.mem (.abs addr)) s)

/-- `LDX $hhll,Y`, opcode BE (R171). -/
def execLdxAbsY (addr : Addr) (s : State) : Host.Outcome State Fault Refusal :=
  .next (loadX (.mem (.absY addr)) s)

/-- `LDY #$nn`, opcode A0 (R172). -/
def execLdyImm (imm8 : Byte) (s : State) : Host.Outcome State Fault Refusal :=
  .next (loadY (.imm imm8) s)

/-- `LDY $nn`, opcode A4 (R172). -/
def execLdyZp (zp8 : Byte) (s : State) : Host.Outcome State Fault Refusal :=
  .next (loadY (.mem (.zp zp8)) s)

/-- `LDY $nn,X`, opcode B4 (R172). -/
def execLdyZpX (zp8 : Byte) (s : State) : Host.Outcome State Fault Refusal :=
  .next (loadY (.mem (.zpX zp8)) s)

/-- `LDY $hhll`, opcode AC (R172). -/
def execLdyAbs (addr : Addr) (s : State) : Host.Outcome State Fault Refusal :=
  .next (loadY (.mem (.abs addr)) s)

/-- `LDY $hhll,X`, opcode BC (R172). -/
def execLdyAbsX (addr : Addr) (s : State) : Host.Outcome State Fault Refusal :=
  .next (loadY (.mem (.absX addr)) s)

end Sys2Proof.Machine
end

