-- ==== Sys2Proof/Machine/Logic.lean ====
section
/-! DEFINITION. Logic on A (42_alu_flags_arith_logic.md R152 to R154). -/

namespace Sys2Proof.Machine

/-- AND, ORA, EOR: A from `f A m`, N and Z from A. -/
def logicOp (f : Byte → Byte → Byte) (src : Source) (s : State) : State :=
  let r := f s.a (sourceValue src s)
  { s.advance src.mode.length with a := r, p := s.p.setZN r }

/-- `AND #$nn`, opcode 29 (R152). -/
def execAndImm (imm8 : Byte) (s : State) : Host.Outcome State Fault Refusal :=
  .next (logicOp (· &&& ·) (.imm imm8) s)

/-- `AND $nn`, opcode 25 (R152). -/
def execAndZp (zp8 : Byte) (s : State) : Host.Outcome State Fault Refusal :=
  .next (logicOp (· &&& ·) (.mem (.zp zp8)) s)

/-- `AND $nn,X`, opcode 35 (R152). -/
def execAndZpX (zp8 : Byte) (s : State) : Host.Outcome State Fault Refusal :=
  .next (logicOp (· &&& ·) (.mem (.zpX zp8)) s)

/-- `AND $hhll`, opcode 2D (R152). -/
def execAndAbs (addr : Addr) (s : State) : Host.Outcome State Fault Refusal :=
  .next (logicOp (· &&& ·) (.mem (.abs addr)) s)

/-- `AND $hhll,X`, opcode 3D (R152). -/
def execAndAbsX (addr : Addr) (s : State) : Host.Outcome State Fault Refusal :=
  .next (logicOp (· &&& ·) (.mem (.absX addr)) s)

/-- `AND $hhll,Y`, opcode 39 (R152). -/
def execAndAbsY (addr : Addr) (s : State) : Host.Outcome State Fault Refusal :=
  .next (logicOp (· &&& ·) (.mem (.absY addr)) s)

/-- `AND ($nn,X)`, opcode 21 (R152). -/
def execAndIndX (zp8 : Byte) (s : State) : Host.Outcome State Fault Refusal :=
  .next (logicOp (· &&& ·) (.mem (.indX zp8)) s)

/-- `AND ($nn),Y`, opcode 31 (R152). -/
def execAndIndY (zp8 : Byte) (s : State) : Host.Outcome State Fault Refusal :=
  .next (logicOp (· &&& ·) (.mem (.indY zp8)) s)

/-- `EOR #$nn`, opcode 49 (R154). -/
def execEorImm (imm8 : Byte) (s : State) : Host.Outcome State Fault Refusal :=
  .next (logicOp (· ^^^ ·) (.imm imm8) s)

/-- `EOR $nn`, opcode 45 (R154). -/
def execEorZp (zp8 : Byte) (s : State) : Host.Outcome State Fault Refusal :=
  .next (logicOp (· ^^^ ·) (.mem (.zp zp8)) s)

/-- `EOR $nn,X`, opcode 55 (R154). -/
def execEorZpX (zp8 : Byte) (s : State) : Host.Outcome State Fault Refusal :=
  .next (logicOp (· ^^^ ·) (.mem (.zpX zp8)) s)

/-- `EOR $hhll`, opcode 4D (R154). -/
def execEorAbs (addr : Addr) (s : State) : Host.Outcome State Fault Refusal :=
  .next (logicOp (· ^^^ ·) (.mem (.abs addr)) s)

/-- `EOR $hhll,X`, opcode 5D (R154). -/
def execEorAbsX (addr : Addr) (s : State) : Host.Outcome State Fault Refusal :=
  .next (logicOp (· ^^^ ·) (.mem (.absX addr)) s)

/-- `EOR $hhll,Y`, opcode 59 (R154). -/
def execEorAbsY (addr : Addr) (s : State) : Host.Outcome State Fault Refusal :=
  .next (logicOp (· ^^^ ·) (.mem (.absY addr)) s)

/-- `EOR ($nn,X)`, opcode 41 (R154). -/
def execEorIndX (zp8 : Byte) (s : State) : Host.Outcome State Fault Refusal :=
  .next (logicOp (· ^^^ ·) (.mem (.indX zp8)) s)

/-- `EOR ($nn),Y`, opcode 51 (R154). -/
def execEorIndY (zp8 : Byte) (s : State) : Host.Outcome State Fault Refusal :=
  .next (logicOp (· ^^^ ·) (.mem (.indY zp8)) s)

/-- `ORA #$nn`, opcode 09 (R153). -/
def execOraImm (imm8 : Byte) (s : State) : Host.Outcome State Fault Refusal :=
  .next (logicOp (· ||| ·) (.imm imm8) s)

/-- `ORA $nn`, opcode 05 (R153). -/
def execOraZp (zp8 : Byte) (s : State) : Host.Outcome State Fault Refusal :=
  .next (logicOp (· ||| ·) (.mem (.zp zp8)) s)

/-- `ORA $nn,X`, opcode 15 (R153). -/
def execOraZpX (zp8 : Byte) (s : State) : Host.Outcome State Fault Refusal :=
  .next (logicOp (· ||| ·) (.mem (.zpX zp8)) s)

/-- `ORA $hhll`, opcode 0D (R153). -/
def execOraAbs (addr : Addr) (s : State) : Host.Outcome State Fault Refusal :=
  .next (logicOp (· ||| ·) (.mem (.abs addr)) s)

/-- `ORA $hhll,X`, opcode 1D (R153). -/
def execOraAbsX (addr : Addr) (s : State) : Host.Outcome State Fault Refusal :=
  .next (logicOp (· ||| ·) (.mem (.absX addr)) s)

/-- `ORA $hhll,Y`, opcode 19 (R153). -/
def execOraAbsY (addr : Addr) (s : State) : Host.Outcome State Fault Refusal :=
  .next (logicOp (· ||| ·) (.mem (.absY addr)) s)

/-- `ORA ($nn,X)`, opcode 01 (R153). -/
def execOraIndX (zp8 : Byte) (s : State) : Host.Outcome State Fault Refusal :=
  .next (logicOp (· ||| ·) (.mem (.indX zp8)) s)

/-- `ORA ($nn),Y`, opcode 11 (R153). -/
def execOraIndY (zp8 : Byte) (s : State) : Host.Outcome State Fault Refusal :=
  .next (logicOp (· ||| ·) (.mem (.indY zp8)) s)

end Sys2Proof.Machine
end

