-- ==== Sys2Proof/Machine/Shift.lean ====
section
/-! DEFINITION. Shifts and rotates (44_inc_dec_shift_rotate.md R190, R197 to R200): N, Z from the result, C the bit shifted out. -/

namespace Sys2Proof.Machine

/-- The accumulator form (R190, R124). -/
def shiftAcc (f : Shifter) (s : State) : State :=
  let out := f s.a s.p.c
  { s.advance 1 with a := out.1, p := s.p.shifted out }

/-- The memory form (R190): one read and one write at the same address. -/
def shiftMem (f : Shifter) (m : MemOperand) (s : State) : State :=
  let out := f (s.read (effAddr m s)) s.p.c
  { (s.advance m.mode.length).write (effAddr m s) out.1 with p := s.p.shifted out }

/-- `ASL A`, opcode 0A (R197). -/
def execAslAcc (s : State) : Host.Outcome State Fault Refusal :=
  .next (shiftAcc aslByte s)

/-- `ASL $nn`, opcode 06 (R197). -/
def execAslZp (zp8 : Byte) (s : State) : Host.Outcome State Fault Refusal :=
  .next (shiftMem aslByte (.zp zp8) s)

/-- `ASL $nn,X`, opcode 16 (R197). -/
def execAslZpX (zp8 : Byte) (s : State) : Host.Outcome State Fault Refusal :=
  .next (shiftMem aslByte (.zpX zp8) s)

/-- `ASL $hhll`, opcode 0E (R197). -/
def execAslAbs (addr : Addr) (s : State) : Host.Outcome State Fault Refusal :=
  .next (shiftMem aslByte (.abs addr) s)

/-- `ASL $hhll,X`, opcode 1E (R197). -/
def execAslAbsX (addr : Addr) (s : State) : Host.Outcome State Fault Refusal :=
  .next (shiftMem aslByte (.absX addr) s)

/-- `LSR A`, opcode 4A (R198). -/
def execLsrAcc (s : State) : Host.Outcome State Fault Refusal :=
  .next (shiftAcc lsrByte s)

/-- `LSR $nn`, opcode 46 (R198). -/
def execLsrZp (zp8 : Byte) (s : State) : Host.Outcome State Fault Refusal :=
  .next (shiftMem lsrByte (.zp zp8) s)

/-- `LSR $nn,X`, opcode 56 (R198). -/
def execLsrZpX (zp8 : Byte) (s : State) : Host.Outcome State Fault Refusal :=
  .next (shiftMem lsrByte (.zpX zp8) s)

/-- `LSR $hhll`, opcode 4E (R198). -/
def execLsrAbs (addr : Addr) (s : State) : Host.Outcome State Fault Refusal :=
  .next (shiftMem lsrByte (.abs addr) s)

/-- `LSR $hhll,X`, opcode 5E (R198). -/
def execLsrAbsX (addr : Addr) (s : State) : Host.Outcome State Fault Refusal :=
  .next (shiftMem lsrByte (.absX addr) s)

/-- `ROL A`, opcode 2A (R199). -/
def execRolAcc (s : State) : Host.Outcome State Fault Refusal :=
  .next (shiftAcc rolByte s)

/-- `ROL $nn`, opcode 26 (R199). -/
def execRolZp (zp8 : Byte) (s : State) : Host.Outcome State Fault Refusal :=
  .next (shiftMem rolByte (.zp zp8) s)

/-- `ROL $nn,X`, opcode 36 (R199). -/
def execRolZpX (zp8 : Byte) (s : State) : Host.Outcome State Fault Refusal :=
  .next (shiftMem rolByte (.zpX zp8) s)

/-- `ROL $hhll`, opcode 2E (R199). -/
def execRolAbs (addr : Addr) (s : State) : Host.Outcome State Fault Refusal :=
  .next (shiftMem rolByte (.abs addr) s)

/-- `ROL $hhll,X`, opcode 3E (R199). -/
def execRolAbsX (addr : Addr) (s : State) : Host.Outcome State Fault Refusal :=
  .next (shiftMem rolByte (.absX addr) s)

/-- `ROR A`, opcode 6A (R200). -/
def execRorAcc (s : State) : Host.Outcome State Fault Refusal :=
  .next (shiftAcc rorByte s)

/-- `ROR $nn`, opcode 66 (R200). -/
def execRorZp (zp8 : Byte) (s : State) : Host.Outcome State Fault Refusal :=
  .next (shiftMem rorByte (.zp zp8) s)

/-- `ROR $nn,X`, opcode 76 (R200). -/
def execRorZpX (zp8 : Byte) (s : State) : Host.Outcome State Fault Refusal :=
  .next (shiftMem rorByte (.zpX zp8) s)

/-- `ROR $hhll`, opcode 6E (R200). -/
def execRorAbs (addr : Addr) (s : State) : Host.Outcome State Fault Refusal :=
  .next (shiftMem rorByte (.abs addr) s)

/-- `ROR $hhll,X`, opcode 7E (R200). -/
def execRorAbsX (addr : Addr) (s : State) : Host.Outcome State Fault Refusal :=
  .next (shiftMem rorByte (.absX addr) s)

end Sys2Proof.Machine
end

