-- ==== Sys2Proof/Machine/Stack.lean ====
section
/-! DEFINITION. Push and pull (46_stack_flags_system.md R230 to R233). -/

namespace Sys2Proof.Machine

/-- PLA (R232): pop into A, N and Z from it. -/
def pullA (s : State) : State :=
  let out := (s.advance 1).pop8
  { out.2 with a := out.1, p := s.p.setZN out.1 }

/-- PLP (R233): pop the status, keeping the live U and B. -/
def pullStatus (s : State) : State :=
  let out := (s.advance 1).pop8
  { out.2 with p := s.p.pulled out.1 }

/-- `PHA`, opcode 48 (R230). -/
def execPha (s : State) : Host.Outcome State Fault Refusal :=
  .next ((s.advance 1).push8 s.a)

/-- `PHP`, opcode 08 (R231). -/
def execPhp (s : State) : Host.Outcome State Fault Refusal :=
  .next ((s.advance 1).push8 s.p.pushed)

/-- `PLA`, opcode 68 (R232). -/
def execPla (s : State) : Host.Outcome State Fault Refusal :=
  .next (pullA s)

/-- `PLP`, opcode 28 (R233). -/
def execPlp (s : State) : Host.Outcome State Fault Refusal :=
  .next (pullStatus s)

end Sys2Proof.Machine
end

