-- ==== Sys2Proof/Machine/Store.lean ====
section
/-! DEFINITION. Stores (43_load_store_transfer.md R173 to R175): no flag changes and nothing is read at the address. -/

namespace Sys2Proof.Machine

/-- STA, STX, STY: the byte `v` to the effective address. -/
def storeOp (m : MemOperand) (v : Byte) (s : State) : State := (s.advance m.mode.length).write (effAddr m s) v

/-- `STA $nn`, opcode 85 (R173). -/
def execStaZp (zp8 : Byte) (s : State) : Host.Outcome State Fault Refusal :=
  .next (storeOp (.zp zp8) s.a s)

/-- `STA $nn,X`, opcode 95 (R173). -/
def execStaZpX (zp8 : Byte) (s : State) : Host.Outcome State Fault Refusal :=
  .next (storeOp (.zpX zp8) s.a s)

/-- `STA $hhll`, opcode 8D (R173). -/
def execStaAbs (addr : Addr) (s : State) : Host.Outcome State Fault Refusal :=
  .next (storeOp (.abs addr) s.a s)

/-- `STA $hhll,X`, opcode 9D (R173). -/
def execStaAbsX (addr : Addr) (s : State) : Host.Outcome State Fault Refusal :=
  .next (storeOp (.absX addr) s.a s)

/-- `STA $hhll,Y`, opcode 99 (R173). -/
def execStaAbsY (addr : Addr) (s : State) : Host.Outcome State Fault Refusal :=
  .next (storeOp (.absY addr) s.a s)

/-- `STA ($nn,X)`, opcode 81 (R173). -/
def execStaIndX (zp8 : Byte) (s : State) : Host.Outcome State Fault Refusal :=
  .next (storeOp (.indX zp8) s.a s)

/-- `STA ($nn),Y`, opcode 91 (R173). -/
def execStaIndY (zp8 : Byte) (s : State) : Host.Outcome State Fault Refusal :=
  .next (storeOp (.indY zp8) s.a s)

/-- `STX $nn`, opcode 86 (R174). -/
def execStxZp (zp8 : Byte) (s : State) : Host.Outcome State Fault Refusal :=
  .next (storeOp (.zp zp8) s.x s)

/-- `STX $nn,Y`, opcode 96 (R174). -/
def execStxZpY (zp8 : Byte) (s : State) : Host.Outcome State Fault Refusal :=
  .next (storeOp (.zpY zp8) s.x s)

/-- `STX $hhll`, opcode 8E (R174). -/
def execStxAbs (addr : Addr) (s : State) : Host.Outcome State Fault Refusal :=
  .next (storeOp (.abs addr) s.x s)

/-- `STY $nn`, opcode 84 (R175). -/
def execStyZp (zp8 : Byte) (s : State) : Host.Outcome State Fault Refusal :=
  .next (storeOp (.zp zp8) s.y s)

/-- `STY $nn,X`, opcode 94 (R175). -/
def execStyZpX (zp8 : Byte) (s : State) : Host.Outcome State Fault Refusal :=
  .next (storeOp (.zpX zp8) s.y s)

/-- `STY $hhll`, opcode 8C (R175). -/
def execStyAbs (addr : Addr) (s : State) : Host.Outcome State Fault Refusal :=
  .next (storeOp (.abs addr) s.y s)

end Sys2Proof.Machine
end

