-- ==== Sys2Proof/Machine/Transfer.lean ====
section
/-! DEFINITION. Register transfers (43_load_store_transfer.md R176 to R181). TXS is the one that writes no flag (R181, 90_conflicts.md C2). -/

namespace Sys2Proof.Machine



/-- `TAX`, opcode AA (R176). -/
def execTax (s : State) : Host.Outcome State Fault Refusal :=
  .next { s.advance 1 with x := s.a, p := s.p.setZN s.a }

/-- `TAY`, opcode A8 (R177). -/
def execTay (s : State) : Host.Outcome State Fault Refusal :=
  .next { s.advance 1 with y := s.a, p := s.p.setZN s.a }

/-- `TSX`, opcode BA (R180). -/
def execTsx (s : State) : Host.Outcome State Fault Refusal :=
  .next { s.advance 1 with x := s.sp, p := s.p.setZN s.sp }

/-- `TXA`, opcode 8A (R178). -/
def execTxa (s : State) : Host.Outcome State Fault Refusal :=
  .next { s.advance 1 with a := s.x, p := s.p.setZN s.x }

/-- `TXS`, opcode 9A (R181). -/
def execTxs (s : State) : Host.Outcome State Fault Refusal :=
  .next { s.advance 1 with sp := s.x }

/-- `TYA`, opcode 98 (R179). -/
def execTya (s : State) : Host.Outcome State Fault Refusal :=
  .next { s.advance 1 with a := s.y, p := s.p.setZN s.y }

end Sys2Proof.Machine
end

