-- ==== Sys2Proof/Machine/Trap.lean ====
section
/-! DEFINITION. The software interrupt and its return (46_stack_flags_system.md R242, R243; 60_exceptions.md R264 to R268). -/

namespace Sys2Proof.Machine

/-- `BRK`, opcode 00 (R242). -/
def execBrk (s : State) : Host.Outcome State Fault Refusal :=
  .next (s.enterTrap (s.pc + 2))

/-- `RTI`, opcode 40 (R243). -/
def execRti (s : State) : Host.Outcome State Fault Refusal :=
  .next s.returnFromTrap

end Sys2Proof.Machine
end

