-- ==== Sys2Proof/Machine/Dispatch.lean ====
section
/-! DEFINITION. The dispatcher: one arm per constructor of `Instr`, each one direct call of its meaning. -/

namespace Sys2Proof.Machine

def exec (i : Instr) (s : State) : Host.Outcome State Fault Refusal :=
  match i with
  | .adcImm imm8 => Sys2Proof.Machine.execAdcImm imm8 s
  | .adcZp zp8 => Sys2Proof.Machine.execAdcZp zp8 s
  | .adcZpX zp8 => Sys2Proof.Machine.execAdcZpX zp8 s
  | .adcAbs addr => Sys2Proof.Machine.execAdcAbs addr s
  | .adcAbsX addr => Sys2Proof.Machine.execAdcAbsX addr s
  | .adcAbsY addr => Sys2Proof.Machine.execAdcAbsY addr s
  | .adcIndX zp8 => Sys2Proof.Machine.execAdcIndX zp8 s
  | .adcIndY zp8 => Sys2Proof.Machine.execAdcIndY zp8 s
  | .andImm imm8 => Sys2Proof.Machine.execAndImm imm8 s
  | .andZp zp8 => Sys2Proof.Machine.execAndZp zp8 s
  | .andZpX zp8 => Sys2Proof.Machine.execAndZpX zp8 s
  | .andAbs addr => Sys2Proof.Machine.execAndAbs addr s
  | .andAbsX addr => Sys2Proof.Machine.execAndAbsX addr s
  | .andAbsY addr => Sys2Proof.Machine.execAndAbsY addr s
  | .andIndX zp8 => Sys2Proof.Machine.execAndIndX zp8 s
  | .andIndY zp8 => Sys2Proof.Machine.execAndIndY zp8 s
  | .aslAcc => Sys2Proof.Machine.execAslAcc s
  | .aslZp zp8 => Sys2Proof.Machine.execAslZp zp8 s
  | .aslZpX zp8 => Sys2Proof.Machine.execAslZpX zp8 s
  | .aslAbs addr => Sys2Proof.Machine.execAslAbs addr s
  | .aslAbsX addr => Sys2Proof.Machine.execAslAbsX addr s
  | .bcc rel8 => Sys2Proof.Machine.execBcc rel8 s
  | .bcs rel8 => Sys2Proof.Machine.execBcs rel8 s
  | .beq rel8 => Sys2Proof.Machine.execBeq rel8 s
  | .bitZp zp8 => Sys2Proof.Machine.execBitZp zp8 s
  | .bitAbs addr => Sys2Proof.Machine.execBitAbs addr s
  | .bmi rel8 => Sys2Proof.Machine.execBmi rel8 s
  | .bne rel8 => Sys2Proof.Machine.execBne rel8 s
  | .bpl rel8 => Sys2Proof.Machine.execBpl rel8 s
  | .brk => Sys2Proof.Machine.execBrk s
  | .bvc rel8 => Sys2Proof.Machine.execBvc rel8 s
  | .bvs rel8 => Sys2Proof.Machine.execBvs rel8 s
  | .clc => Sys2Proof.Machine.execClc s
  | .cld => Sys2Proof.Machine.execCld s
  | .cli => Sys2Proof.Machine.execCli s
  | .clv => Sys2Proof.Machine.execClv s
  | .cmpImm imm8 => Sys2Proof.Machine.execCmpImm imm8 s
  | .cmpZp zp8 => Sys2Proof.Machine.execCmpZp zp8 s
  | .cmpZpX zp8 => Sys2Proof.Machine.execCmpZpX zp8 s
  | .cmpAbs addr => Sys2Proof.Machine.execCmpAbs addr s
  | .cmpAbsX addr => Sys2Proof.Machine.execCmpAbsX addr s
  | .cmpAbsY addr => Sys2Proof.Machine.execCmpAbsY addr s
  | .cmpIndX zp8 => Sys2Proof.Machine.execCmpIndX zp8 s
  | .cmpIndY zp8 => Sys2Proof.Machine.execCmpIndY zp8 s
  | .cpxImm imm8 => Sys2Proof.Machine.execCpxImm imm8 s
  | .cpxZp zp8 => Sys2Proof.Machine.execCpxZp zp8 s
  | .cpxAbs addr => Sys2Proof.Machine.execCpxAbs addr s
  | .cpyImm imm8 => Sys2Proof.Machine.execCpyImm imm8 s
  | .cpyZp zp8 => Sys2Proof.Machine.execCpyZp zp8 s
  | .cpyAbs addr => Sys2Proof.Machine.execCpyAbs addr s
  | .decZp zp8 => Sys2Proof.Machine.execDecZp zp8 s
  | .decZpX zp8 => Sys2Proof.Machine.execDecZpX zp8 s
  | .decAbs addr => Sys2Proof.Machine.execDecAbs addr s
  | .decAbsX addr => Sys2Proof.Machine.execDecAbsX addr s
  | .dex => Sys2Proof.Machine.execDex s
  | .dey => Sys2Proof.Machine.execDey s
  | .eorImm imm8 => Sys2Proof.Machine.execEorImm imm8 s
  | .eorZp zp8 => Sys2Proof.Machine.execEorZp zp8 s
  | .eorZpX zp8 => Sys2Proof.Machine.execEorZpX zp8 s
  | .eorAbs addr => Sys2Proof.Machine.execEorAbs addr s
  | .eorAbsX addr => Sys2Proof.Machine.execEorAbsX addr s
  | .eorAbsY addr => Sys2Proof.Machine.execEorAbsY addr s
  | .eorIndX zp8 => Sys2Proof.Machine.execEorIndX zp8 s
  | .eorIndY zp8 => Sys2Proof.Machine.execEorIndY zp8 s
  | .incZp zp8 => Sys2Proof.Machine.execIncZp zp8 s
  | .incZpX zp8 => Sys2Proof.Machine.execIncZpX zp8 s
  | .incAbs addr => Sys2Proof.Machine.execIncAbs addr s
  | .incAbsX addr => Sys2Proof.Machine.execIncAbsX addr s
  | .inx => Sys2Proof.Machine.execInx s
  | .iny => Sys2Proof.Machine.execIny s
  | .jmpAbs addr => Sys2Proof.Machine.execJmpAbs addr s
  | .jmpInd ptr => Sys2Proof.Machine.execJmpInd ptr s
  | .jsr addr => Sys2Proof.Machine.execJsr addr s
  | .ldaImm imm8 => Sys2Proof.Machine.execLdaImm imm8 s
  | .ldaZp zp8 => Sys2Proof.Machine.execLdaZp zp8 s
  | .ldaZpX zp8 => Sys2Proof.Machine.execLdaZpX zp8 s
  | .ldaAbs addr => Sys2Proof.Machine.execLdaAbs addr s
  | .ldaAbsX addr => Sys2Proof.Machine.execLdaAbsX addr s
  | .ldaAbsY addr => Sys2Proof.Machine.execLdaAbsY addr s
  | .ldaIndX zp8 => Sys2Proof.Machine.execLdaIndX zp8 s
  | .ldaIndY zp8 => Sys2Proof.Machine.execLdaIndY zp8 s
  | .ldxImm imm8 => Sys2Proof.Machine.execLdxImm imm8 s
  | .ldxZp zp8 => Sys2Proof.Machine.execLdxZp zp8 s
  | .ldxZpY zp8 => Sys2Proof.Machine.execLdxZpY zp8 s
  | .ldxAbs addr => Sys2Proof.Machine.execLdxAbs addr s
  | .ldxAbsY addr => Sys2Proof.Machine.execLdxAbsY addr s
  | .ldyImm imm8 => Sys2Proof.Machine.execLdyImm imm8 s
  | .ldyZp zp8 => Sys2Proof.Machine.execLdyZp zp8 s
  | .ldyZpX zp8 => Sys2Proof.Machine.execLdyZpX zp8 s
  | .ldyAbs addr => Sys2Proof.Machine.execLdyAbs addr s
  | .ldyAbsX addr => Sys2Proof.Machine.execLdyAbsX addr s
  | .lsrAcc => Sys2Proof.Machine.execLsrAcc s
  | .lsrZp zp8 => Sys2Proof.Machine.execLsrZp zp8 s
  | .lsrZpX zp8 => Sys2Proof.Machine.execLsrZpX zp8 s
  | .lsrAbs addr => Sys2Proof.Machine.execLsrAbs addr s
  | .lsrAbsX addr => Sys2Proof.Machine.execLsrAbsX addr s
  | .nop => Sys2Proof.Machine.execNop s
  | .oraImm imm8 => Sys2Proof.Machine.execOraImm imm8 s
  | .oraZp zp8 => Sys2Proof.Machine.execOraZp zp8 s
  | .oraZpX zp8 => Sys2Proof.Machine.execOraZpX zp8 s
  | .oraAbs addr => Sys2Proof.Machine.execOraAbs addr s
  | .oraAbsX addr => Sys2Proof.Machine.execOraAbsX addr s
  | .oraAbsY addr => Sys2Proof.Machine.execOraAbsY addr s
  | .oraIndX zp8 => Sys2Proof.Machine.execOraIndX zp8 s
  | .oraIndY zp8 => Sys2Proof.Machine.execOraIndY zp8 s
  | .pha => Sys2Proof.Machine.execPha s
  | .php => Sys2Proof.Machine.execPhp s
  | .pla => Sys2Proof.Machine.execPla s
  | .plp => Sys2Proof.Machine.execPlp s
  | .rolAcc => Sys2Proof.Machine.execRolAcc s
  | .rolZp zp8 => Sys2Proof.Machine.execRolZp zp8 s
  | .rolZpX zp8 => Sys2Proof.Machine.execRolZpX zp8 s
  | .rolAbs addr => Sys2Proof.Machine.execRolAbs addr s
  | .rolAbsX addr => Sys2Proof.Machine.execRolAbsX addr s
  | .rorAcc => Sys2Proof.Machine.execRorAcc s
  | .rorZp zp8 => Sys2Proof.Machine.execRorZp zp8 s
  | .rorZpX zp8 => Sys2Proof.Machine.execRorZpX zp8 s
  | .rorAbs addr => Sys2Proof.Machine.execRorAbs addr s
  | .rorAbsX addr => Sys2Proof.Machine.execRorAbsX addr s
  | .rti => Sys2Proof.Machine.execRti s
  | .rts => Sys2Proof.Machine.execRts s
  | .sbcImm imm8 => Sys2Proof.Machine.execSbcImm imm8 s
  | .sbcZp zp8 => Sys2Proof.Machine.execSbcZp zp8 s
  | .sbcZpX zp8 => Sys2Proof.Machine.execSbcZpX zp8 s
  | .sbcAbs addr => Sys2Proof.Machine.execSbcAbs addr s
  | .sbcAbsX addr => Sys2Proof.Machine.execSbcAbsX addr s
  | .sbcAbsY addr => Sys2Proof.Machine.execSbcAbsY addr s
  | .sbcIndX zp8 => Sys2Proof.Machine.execSbcIndX zp8 s
  | .sbcIndY zp8 => Sys2Proof.Machine.execSbcIndY zp8 s
  | .sec => Sys2Proof.Machine.execSec s
  | .sed => Sys2Proof.Machine.execSed s
  | .sei => Sys2Proof.Machine.execSei s
  | .staZp zp8 => Sys2Proof.Machine.execStaZp zp8 s
  | .staZpX zp8 => Sys2Proof.Machine.execStaZpX zp8 s
  | .staAbs addr => Sys2Proof.Machine.execStaAbs addr s
  | .staAbsX addr => Sys2Proof.Machine.execStaAbsX addr s
  | .staAbsY addr => Sys2Proof.Machine.execStaAbsY addr s
  | .staIndX zp8 => Sys2Proof.Machine.execStaIndX zp8 s
  | .staIndY zp8 => Sys2Proof.Machine.execStaIndY zp8 s
  | .stxZp zp8 => Sys2Proof.Machine.execStxZp zp8 s
  | .stxZpY zp8 => Sys2Proof.Machine.execStxZpY zp8 s
  | .stxAbs addr => Sys2Proof.Machine.execStxAbs addr s
  | .styZp zp8 => Sys2Proof.Machine.execStyZp zp8 s
  | .styZpX zp8 => Sys2Proof.Machine.execStyZpX zp8 s
  | .styAbs addr => Sys2Proof.Machine.execStyAbs addr s
  | .tax => Sys2Proof.Machine.execTax s
  | .tay => Sys2Proof.Machine.execTay s
  | .tsx => Sys2Proof.Machine.execTsx s
  | .txa => Sys2Proof.Machine.execTxa s
  | .txs => Sys2Proof.Machine.execTxs s
  | .tya => Sys2Proof.Machine.execTya s

end Sys2Proof.Machine
end

