-- ==== Sys2Proof/WellFormed.lean ====
section
/-! DEFINITION. Well-formed instructions. No operand value is illegal (93_implementation_defined.md U13: "the operand
bytes are used in full"), so the one check is that the mnemonic has the addressing mode: a cell of the table of
30_encoding.md R88 that is not empty ("An empty cell means the mnemonic does not have that mode: there is no such
instruction"). -/

namespace Sys2Proof

/-- The modes of each mnemonic: the non-empty cells of its row in R88. -/
def modesOf : Operation → List Mode
  | .adc => [.immediate, .zeroPage, .zeroPageX, .absolute, .absoluteX, .absoluteY, .indirectX, .indirectY]
  | .and => [.immediate, .zeroPage, .zeroPageX, .absolute, .absoluteX, .absoluteY, .indirectX, .indirectY]
  | .asl => [.accumulator, .zeroPage, .zeroPageX, .absolute, .absoluteX]
  | .bcc => [.relative]
  | .bcs => [.relative]
  | .beq => [.relative]
  | .bit => [.zeroPage, .absolute]
  | .bmi => [.relative]
  | .bne => [.relative]
  | .bpl => [.relative]
  | .brk => [.implied]
  | .bvc => [.relative]
  | .bvs => [.relative]
  | .clc => [.implied]
  | .cld => [.implied]
  | .cli => [.implied]
  | .clv => [.implied]
  | .cmp => [.immediate, .zeroPage, .zeroPageX, .absolute, .absoluteX, .absoluteY, .indirectX, .indirectY]
  | .cpx => [.immediate, .zeroPage, .absolute]
  | .cpy => [.immediate, .zeroPage, .absolute]
  | .dec => [.zeroPage, .zeroPageX, .absolute, .absoluteX]
  | .dex => [.implied]
  | .dey => [.implied]
  | .eor => [.immediate, .zeroPage, .zeroPageX, .absolute, .absoluteX, .absoluteY, .indirectX, .indirectY]
  | .inc => [.zeroPage, .zeroPageX, .absolute, .absoluteX]
  | .inx => [.implied]
  | .iny => [.implied]
  | .jmp => [.absolute, .indirect]
  | .jsr => [.absolute]
  | .lda => [.immediate, .zeroPage, .zeroPageX, .absolute, .absoluteX, .absoluteY, .indirectX, .indirectY]
  | .ldx => [.immediate, .zeroPage, .zeroPageY, .absolute, .absoluteY]
  | .ldy => [.immediate, .zeroPage, .zeroPageX, .absolute, .absoluteX]
  | .lsr => [.accumulator, .zeroPage, .zeroPageX, .absolute, .absoluteX]
  | .nop => [.implied]
  | .ora => [.immediate, .zeroPage, .zeroPageX, .absolute, .absoluteX, .absoluteY, .indirectX, .indirectY]
  | .pha => [.implied]
  | .php => [.implied]
  | .pla => [.implied]
  | .plp => [.implied]
  | .rol => [.accumulator, .zeroPage, .zeroPageX, .absolute, .absoluteX]
  | .ror => [.accumulator, .zeroPage, .zeroPageX, .absolute, .absoluteX]
  | .rti => [.implied]
  | .rts => [.implied]
  | .sbc => [.immediate, .zeroPage, .zeroPageX, .absolute, .absoluteX, .absoluteY, .indirectX, .indirectY]
  | .sec => [.implied]
  | .sed => [.implied]
  | .sei => [.implied]
  | .sta => [.zeroPage, .zeroPageX, .absolute, .absoluteX, .absoluteY, .indirectX, .indirectY]
  | .stx => [.zeroPage, .zeroPageY, .absolute]
  | .sty => [.zeroPage, .zeroPageX, .absolute]
  | .tax => [.implied]
  | .tay => [.implied]
  | .tsx => [.implied]
  | .txa => [.implied]
  | .txs => [.implied]
  | .tya => [.implied]

/-- The mnemonic has the mode (R88). -/
def formExists (op : Operation) (m : Mode) : Bool := (modesOf op).contains m

/-- An instruction is well formed when its mnemonic has its mode. -/
def WellFormed (i : Instr) : Bool := formExists i.operation i.operand.mode

end Sys2Proof
end

