-- ==== Sys2Proof/Decode.lean ====
section
/-! DEFINITION. The decode table, the decoder and the encoder (30_encoding.md R80 to R92). The table is data: 256
entries indexed by the opcode byte, 151 of them descriptors (R85), laid out row by row as the matrix of R87. The
opcode byte of each instruction is written a second time, from the table by mnemonic of R88, for the encoder. The map
itself is the spec's from general knowledge (93_implementation_defined.md G1): UNVERIFIED, unsafe, log entry 13. -/

namespace Sys2Proof

/-- How an instruction is put together from its operand bytes (R82, R84). -/
inductive Builder where
  | noOperand (i : Instr)
  | byteOperand (f : Byte → Instr)
  | wordOperand (f : Addr → Instr)

/-- What may be added to the base cycle count: nothing, `+p` or `+b` (R88, R104). -/
inductive Penalty where
  | fixed | pageCross | branch
  deriving DecidableEq, Repr

/-- The decode-table entry of one legal opcode (R85), with the penalty mark of R88. -/
structure Descriptor where
  operation : Operation
  mode : Mode
  baseCycles : Nat
  penalty : Penalty
  builder : Builder

/-- Row 0x of R87. -/
def decodeRow0 : List (Option Descriptor) :=
  [some ⟨.brk, .implied, 7, .fixed, .noOperand .brk⟩,
   some ⟨.ora, .indirectX, 6, .fixed, .byteOperand .oraIndX⟩,
   none, none, none,
   some ⟨.ora, .zeroPage, 3, .fixed, .byteOperand .oraZp⟩,
   some ⟨.asl, .zeroPage, 5, .fixed, .byteOperand .aslZp⟩,
   none,
   some ⟨.php, .implied, 3, .fixed, .noOperand .php⟩,
   some ⟨.ora, .immediate, 2, .fixed, .byteOperand .oraImm⟩,
   some ⟨.asl, .accumulator, 2, .fixed, .noOperand .aslAcc⟩,
   none, none,
   some ⟨.ora, .absolute, 4, .fixed, .wordOperand .oraAbs⟩,
   some ⟨.asl, .absolute, 6, .fixed, .wordOperand .aslAbs⟩,
   none]

/-- Row 1x of R87. -/
def decodeRow1 : List (Option Descriptor) :=
  [some ⟨.bpl, .relative, 2, .branch, .byteOperand .bpl⟩,
   some ⟨.ora, .indirectY, 5, .pageCross, .byteOperand .oraIndY⟩,
   none, none, none,
   some ⟨.ora, .zeroPageX, 4, .fixed, .byteOperand .oraZpX⟩,
   some ⟨.asl, .zeroPageX, 6, .fixed, .byteOperand .aslZpX⟩,
   none,
   some ⟨.clc, .implied, 2, .fixed, .noOperand .clc⟩,
   some ⟨.ora, .absoluteY, 4, .pageCross, .wordOperand .oraAbsY⟩,
   none, none, none,
   some ⟨.ora, .absoluteX, 4, .pageCross, .wordOperand .oraAbsX⟩,
   some ⟨.asl, .absoluteX, 7, .fixed, .wordOperand .aslAbsX⟩,
   none]

/-- Row 2x of R87. -/
def decodeRow2 : List (Option Descriptor) :=
  [some ⟨.jsr, .absolute, 6, .fixed, .wordOperand .jsr⟩,
   some ⟨.and, .indirectX, 6, .fixed, .byteOperand .andIndX⟩,
   none, none,
   some ⟨.bit, .zeroPage, 3, .fixed, .byteOperand .bitZp⟩,
   some ⟨.and, .zeroPage, 3, .fixed, .byteOperand .andZp⟩,
   some ⟨.rol, .zeroPage, 5, .fixed, .byteOperand .rolZp⟩,
   none,
   some ⟨.plp, .implied, 4, .fixed, .noOperand .plp⟩,
   some ⟨.and, .immediate, 2, .fixed, .byteOperand .andImm⟩,
   some ⟨.rol, .accumulator, 2, .fixed, .noOperand .rolAcc⟩,
   none,
   some ⟨.bit, .absolute, 4, .fixed, .wordOperand .bitAbs⟩,
   some ⟨.and, .absolute, 4, .fixed, .wordOperand .andAbs⟩,
   some ⟨.rol, .absolute, 6, .fixed, .wordOperand .rolAbs⟩,
   none]

/-- Row 3x of R87. -/
def decodeRow3 : List (Option Descriptor) :=
  [some ⟨.bmi, .relative, 2, .branch, .byteOperand .bmi⟩,
   some ⟨.and, .indirectY, 5, .pageCross, .byteOperand .andIndY⟩,
   none, none, none,
   some ⟨.and, .zeroPageX, 4, .fixed, .byteOperand .andZpX⟩,
   some ⟨.rol, .zeroPageX, 6, .fixed, .byteOperand .rolZpX⟩,
   none,
   some ⟨.sec, .implied, 2, .fixed, .noOperand .sec⟩,
   some ⟨.and, .absoluteY, 4, .pageCross, .wordOperand .andAbsY⟩,
   none, none, none,
   some ⟨.and, .absoluteX, 4, .pageCross, .wordOperand .andAbsX⟩,
   some ⟨.rol, .absoluteX, 7, .fixed, .wordOperand .rolAbsX⟩,
   none]

/-- Row 4x of R87. -/
def decodeRow4 : List (Option Descriptor) :=
  [some ⟨.rti, .implied, 6, .fixed, .noOperand .rti⟩,
   some ⟨.eor, .indirectX, 6, .fixed, .byteOperand .eorIndX⟩,
   none, none, none,
   some ⟨.eor, .zeroPage, 3, .fixed, .byteOperand .eorZp⟩,
   some ⟨.lsr, .zeroPage, 5, .fixed, .byteOperand .lsrZp⟩,
   none,
   some ⟨.pha, .implied, 3, .fixed, .noOperand .pha⟩,
   some ⟨.eor, .immediate, 2, .fixed, .byteOperand .eorImm⟩,
   some ⟨.lsr, .accumulator, 2, .fixed, .noOperand .lsrAcc⟩,
   none,
   some ⟨.jmp, .absolute, 3, .fixed, .wordOperand .jmpAbs⟩,
   some ⟨.eor, .absolute, 4, .fixed, .wordOperand .eorAbs⟩,
   some ⟨.lsr, .absolute, 6, .fixed, .wordOperand .lsrAbs⟩,
   none]

/-- Row 5x of R87. -/
def decodeRow5 : List (Option Descriptor) :=
  [some ⟨.bvc, .relative, 2, .branch, .byteOperand .bvc⟩,
   some ⟨.eor, .indirectY, 5, .pageCross, .byteOperand .eorIndY⟩,
   none, none, none,
   some ⟨.eor, .zeroPageX, 4, .fixed, .byteOperand .eorZpX⟩,
   some ⟨.lsr, .zeroPageX, 6, .fixed, .byteOperand .lsrZpX⟩,
   none,
   some ⟨.cli, .implied, 2, .fixed, .noOperand .cli⟩,
   some ⟨.eor, .absoluteY, 4, .pageCross, .wordOperand .eorAbsY⟩,
   none, none, none,
   some ⟨.eor, .absoluteX, 4, .pageCross, .wordOperand .eorAbsX⟩,
   some ⟨.lsr, .absoluteX, 7, .fixed, .wordOperand .lsrAbsX⟩,
   none]

/-- Row 6x of R87. -/
def decodeRow6 : List (Option Descriptor) :=
  [some ⟨.rts, .implied, 6, .fixed, .noOperand .rts⟩,
   some ⟨.adc, .indirectX, 6, .fixed, .byteOperand .adcIndX⟩,
   none, none, none,
   some ⟨.adc, .zeroPage, 3, .fixed, .byteOperand .adcZp⟩,
   some ⟨.ror, .zeroPage, 5, .fixed, .byteOperand .rorZp⟩,
   none,
   some ⟨.pla, .implied, 4, .fixed, .noOperand .pla⟩,
   some ⟨.adc, .immediate, 2, .fixed, .byteOperand .adcImm⟩,
   some ⟨.ror, .accumulator, 2, .fixed, .noOperand .rorAcc⟩,
   none,
   some ⟨.jmp, .indirect, 5, .fixed, .wordOperand .jmpInd⟩,
   some ⟨.adc, .absolute, 4, .fixed, .wordOperand .adcAbs⟩,
   some ⟨.ror, .absolute, 6, .fixed, .wordOperand .rorAbs⟩,
   none]

/-- Row 7x of R87. -/
def decodeRow7 : List (Option Descriptor) :=
  [some ⟨.bvs, .relative, 2, .branch, .byteOperand .bvs⟩,
   some ⟨.adc, .indirectY, 5, .pageCross, .byteOperand .adcIndY⟩,
   none, none, none,
   some ⟨.adc, .zeroPageX, 4, .fixed, .byteOperand .adcZpX⟩,
   some ⟨.ror, .zeroPageX, 6, .fixed, .byteOperand .rorZpX⟩,
   none,
   some ⟨.sei, .implied, 2, .fixed, .noOperand .sei⟩,
   some ⟨.adc, .absoluteY, 4, .pageCross, .wordOperand .adcAbsY⟩,
   none, none, none,
   some ⟨.adc, .absoluteX, 4, .pageCross, .wordOperand .adcAbsX⟩,
   some ⟨.ror, .absoluteX, 7, .fixed, .wordOperand .rorAbsX⟩,
   none]

/-- Row 8x of R87. -/
def decodeRow8 : List (Option Descriptor) :=
  [none,
   some ⟨.sta, .indirectX, 6, .fixed, .byteOperand .staIndX⟩,
   none, none,
   some ⟨.sty, .zeroPage, 3, .fixed, .byteOperand .styZp⟩,
   some ⟨.sta, .zeroPage, 3, .fixed, .byteOperand .staZp⟩,
   some ⟨.stx, .zeroPage, 3, .fixed, .byteOperand .stxZp⟩,
   none,
   some ⟨.dey, .implied, 2, .fixed, .noOperand .dey⟩,
   none,
   some ⟨.txa, .implied, 2, .fixed, .noOperand .txa⟩,
   none,
   some ⟨.sty, .absolute, 4, .fixed, .wordOperand .styAbs⟩,
   some ⟨.sta, .absolute, 4, .fixed, .wordOperand .staAbs⟩,
   some ⟨.stx, .absolute, 4, .fixed, .wordOperand .stxAbs⟩,
   none]

/-- Row 9x of R87. -/
def decodeRow9 : List (Option Descriptor) :=
  [some ⟨.bcc, .relative, 2, .branch, .byteOperand .bcc⟩,
   some ⟨.sta, .indirectY, 6, .fixed, .byteOperand .staIndY⟩,
   none, none,
   some ⟨.sty, .zeroPageX, 4, .fixed, .byteOperand .styZpX⟩,
   some ⟨.sta, .zeroPageX, 4, .fixed, .byteOperand .staZpX⟩,
   some ⟨.stx, .zeroPageY, 4, .fixed, .byteOperand .stxZpY⟩,
   none,
   some ⟨.tya, .implied, 2, .fixed, .noOperand .tya⟩,
   some ⟨.sta, .absoluteY, 5, .fixed, .wordOperand .staAbsY⟩,
   some ⟨.txs, .implied, 2, .fixed, .noOperand .txs⟩,
   none, none,
   some ⟨.sta, .absoluteX, 5, .fixed, .wordOperand .staAbsX⟩,
   none, none]

/-- Row Ax of R87. -/
def decodeRowA : List (Option Descriptor) :=
  [some ⟨.ldy, .immediate, 2, .fixed, .byteOperand .ldyImm⟩,
   some ⟨.lda, .indirectX, 6, .fixed, .byteOperand .ldaIndX⟩,
   some ⟨.ldx, .immediate, 2, .fixed, .byteOperand .ldxImm⟩,
   none,
   some ⟨.ldy, .zeroPage, 3, .fixed, .byteOperand .ldyZp⟩,
   some ⟨.lda, .zeroPage, 3, .fixed, .byteOperand .ldaZp⟩,
   some ⟨.ldx, .zeroPage, 3, .fixed, .byteOperand .ldxZp⟩,
   none,
   some ⟨.tay, .implied, 2, .fixed, .noOperand .tay⟩,
   some ⟨.lda, .immediate, 2, .fixed, .byteOperand .ldaImm⟩,
   some ⟨.tax, .implied, 2, .fixed, .noOperand .tax⟩,
   none,
   some ⟨.ldy, .absolute, 4, .fixed, .wordOperand .ldyAbs⟩,
   some ⟨.lda, .absolute, 4, .fixed, .wordOperand .ldaAbs⟩,
   some ⟨.ldx, .absolute, 4, .fixed, .wordOperand .ldxAbs⟩,
   none]

/-- Row Bx of R87. -/
def decodeRowB : List (Option Descriptor) :=
  [some ⟨.bcs, .relative, 2, .branch, .byteOperand .bcs⟩,
   some ⟨.lda, .indirectY, 5, .pageCross, .byteOperand .ldaIndY⟩,
   none, none,
   some ⟨.ldy, .zeroPageX, 4, .fixed, .byteOperand .ldyZpX⟩,
   some ⟨.lda, .zeroPageX, 4, .fixed, .byteOperand .ldaZpX⟩,
   some ⟨.ldx, .zeroPageY, 4, .fixed, .byteOperand .ldxZpY⟩,
   none,
   some ⟨.clv, .implied, 2, .fixed, .noOperand .clv⟩,
   some ⟨.lda, .absoluteY, 4, .pageCross, .wordOperand .ldaAbsY⟩,
   some ⟨.tsx, .implied, 2, .fixed, .noOperand .tsx⟩,
   none,
   some ⟨.ldy, .absoluteX, 4, .pageCross, .wordOperand .ldyAbsX⟩,
   some ⟨.lda, .absoluteX, 4, .pageCross, .wordOperand .ldaAbsX⟩,
   some ⟨.ldx, .absoluteY, 4, .pageCross, .wordOperand .ldxAbsY⟩,
   none]

/-- Row Cx of R87. -/
def decodeRowC : List (Option Descriptor) :=
  [some ⟨.cpy, .immediate, 2, .fixed, .byteOperand .cpyImm⟩,
   some ⟨.cmp, .indirectX, 6, .fixed, .byteOperand .cmpIndX⟩,
   none, none,
   some ⟨.cpy, .zeroPage, 3, .fixed, .byteOperand .cpyZp⟩,
   some ⟨.cmp, .zeroPage, 3, .fixed, .byteOperand .cmpZp⟩,
   some ⟨.dec, .zeroPage, 5, .fixed, .byteOperand .decZp⟩,
   none,
   some ⟨.iny, .implied, 2, .fixed, .noOperand .iny⟩,
   some ⟨.cmp, .immediate, 2, .fixed, .byteOperand .cmpImm⟩,
   some ⟨.dex, .implied, 2, .fixed, .noOperand .dex⟩,
   none,
   some ⟨.cpy, .absolute, 4, .fixed, .wordOperand .cpyAbs⟩,
   some ⟨.cmp, .absolute, 4, .fixed, .wordOperand .cmpAbs⟩,
   some ⟨.dec, .absolute, 6, .fixed, .wordOperand .decAbs⟩,
   none]

/-- Row Dx of R87. -/
def decodeRowD : List (Option Descriptor) :=
  [some ⟨.bne, .relative, 2, .branch, .byteOperand .bne⟩,
   some ⟨.cmp, .indirectY, 5, .pageCross, .byteOperand .cmpIndY⟩,
   none, none, none,
   some ⟨.cmp, .zeroPageX, 4, .fixed, .byteOperand .cmpZpX⟩,
   some ⟨.dec, .zeroPageX, 6, .fixed, .byteOperand .decZpX⟩,
   none,
   some ⟨.cld, .implied, 2, .fixed, .noOperand .cld⟩,
   some ⟨.cmp, .absoluteY, 4, .pageCross, .wordOperand .cmpAbsY⟩,
   none, none, none,
   some ⟨.cmp, .absoluteX, 4, .pageCross, .wordOperand .cmpAbsX⟩,
   some ⟨.dec, .absoluteX, 7, .fixed, .wordOperand .decAbsX⟩,
   none]

/-- Row Ex of R87. -/
def decodeRowE : List (Option Descriptor) :=
  [some ⟨.cpx, .immediate, 2, .fixed, .byteOperand .cpxImm⟩,
   some ⟨.sbc, .indirectX, 6, .fixed, .byteOperand .sbcIndX⟩,
   none, none,
   some ⟨.cpx, .zeroPage, 3, .fixed, .byteOperand .cpxZp⟩,
   some ⟨.sbc, .zeroPage, 3, .fixed, .byteOperand .sbcZp⟩,
   some ⟨.inc, .zeroPage, 5, .fixed, .byteOperand .incZp⟩,
   none,
   some ⟨.inx, .implied, 2, .fixed, .noOperand .inx⟩,
   some ⟨.sbc, .immediate, 2, .fixed, .byteOperand .sbcImm⟩,
   some ⟨.nop, .implied, 2, .fixed, .noOperand .nop⟩,
   none,
   some ⟨.cpx, .absolute, 4, .fixed, .wordOperand .cpxAbs⟩,
   some ⟨.sbc, .absolute, 4, .fixed, .wordOperand .sbcAbs⟩,
   some ⟨.inc, .absolute, 6, .fixed, .wordOperand .incAbs⟩,
   none]

/-- Row Fx of R87. -/
def decodeRowF : List (Option Descriptor) :=
  [some ⟨.beq, .relative, 2, .branch, .byteOperand .beq⟩,
   some ⟨.sbc, .indirectY, 5, .pageCross, .byteOperand .sbcIndY⟩,
   none, none, none,
   some ⟨.sbc, .zeroPageX, 4, .fixed, .byteOperand .sbcZpX⟩,
   some ⟨.inc, .zeroPageX, 6, .fixed, .byteOperand .incZpX⟩,
   none,
   some ⟨.sed, .implied, 2, .fixed, .noOperand .sed⟩,
   some ⟨.sbc, .absoluteY, 4, .pageCross, .wordOperand .sbcAbsY⟩,
   none, none, none,
   some ⟨.sbc, .absoluteX, 4, .pageCross, .wordOperand .sbcAbsX⟩,
   some ⟨.inc, .absoluteX, 7, .fixed, .wordOperand .incAbsX⟩,
   none]

/-- The decode table: 256 entries, absent ones tagged `none` (R85, R87, R90). -/
def decodeTable : List (Option Descriptor) :=
  decodeRow0 ++ decodeRow1 ++ decodeRow2 ++ decodeRow3 ++ decodeRow4 ++ decodeRow5 ++ decodeRow6 ++ decodeRow7 ++
  decodeRow8 ++ decodeRow9 ++ decodeRowA ++ decodeRowB ++ decodeRowC ++ decodeRowD ++ decodeRowE ++ decodeRowF

/-- The descriptor of an opcode byte, `none` for the 105 undefined ones (R85, R90, R103). -/
def descriptor (op : Byte) : Option Descriptor := decodeTable.getD op.toNat none

/-- Assemble an instruction from the two bytes after its opcode; a format uses the ones it has (R82, R84: the first
is the low byte of a word). -/
def Builder.build : Builder → Byte → Byte → Instr
  | .noOperand i, _, _ => i
  | .byteOperand f, b1, _ => f b1
  | .wordOperand f, b1, b2 => f (joinBytes b2 b1)

/-- The instruction whose opcode is `op` and whose following bytes are `b1`, `b2`; `none` where the opcode is
undefined (R83, R90, R103: "Decoding reads nothing but the opcode byte"). -/
def decodeBytes (op b1 b2 : Byte) : Option Instr := (descriptor op).map fun d => d.builder.build b1 b2

/-- The answers of the decoder on a list of bytes. -/
inductive Decoded where
  /-- An instruction, and the bytes after it. -/
  | instr (i : Instr) (rest : List Byte)
  /-- The first byte has no descriptor (R90). -/
  | undefinedOpcode (op : Byte)
  /-- The list ends inside the instruction. -/
  | truncated
  deriving DecidableEq, Repr

/-- The decoder on a list of bytes at ascending addresses (R80, R83): total, and by name where there is no
instruction. -/
def decode : List Byte → Decoded
  | [] => .truncated
  | op :: bs =>
    match descriptor op with
    | none => .undefinedOpcode op
    | some d =>
      match d.builder, bs with
      | .noOperand i, rest => .instr i rest
      | .byteOperand f, b1 :: rest => .instr (f b1) rest
      | .wordOperand f, b1 :: b2 :: rest => .instr (f (joinBytes b2 b1)) rest
      | .byteOperand _, [] => .truncated
      | .wordOperand _, [] => .truncated
      | .wordOperand _, [_] => .truncated

/-- Byte `k` of a word of instruction bits numbered from the least significant bit of the first byte. -/
def tableByte (w k : Nat) : Byte := BitVec.ofNat 8 (w / 256 ^ k)

/-- The instruction the decoder reads from `nbits` instruction bits `w`, bit 0 the least significant of the opcode
byte, the bits above `nbits` zero. -/
def decodeTableWord (nbits w : Nat) : Option Instr :=
  decodeBytes (tableByte (w % 2 ^ nbits) 0) (tableByte (w % 2 ^ nbits) 1) (tableByte (w % 2 ^ nbits) 2)

/-- The opcode byte of each instruction, by mnemonic and mode as in R88. -/
def Instr.opcode : Instr → Byte
  | .adcImm _ => 0x69
  | .adcZp _ => 0x65
  | .adcZpX _ => 0x75
  | .adcAbs _ => 0x6D
  | .adcAbsX _ => 0x7D
  | .adcAbsY _ => 0x79
  | .adcIndX _ => 0x61
  | .adcIndY _ => 0x71
  | .andImm _ => 0x29
  | .andZp _ => 0x25
  | .andZpX _ => 0x35
  | .andAbs _ => 0x2D
  | .andAbsX _ => 0x3D
  | .andAbsY _ => 0x39
  | .andIndX _ => 0x21
  | .andIndY _ => 0x31
  | .aslAcc => 0x0A
  | .aslZp _ => 0x06
  | .aslZpX _ => 0x16
  | .aslAbs _ => 0x0E
  | .aslAbsX _ => 0x1E
  | .bcc _ => 0x90
  | .bcs _ => 0xB0
  | .beq _ => 0xF0
  | .bitZp _ => 0x24
  | .bitAbs _ => 0x2C
  | .bmi _ => 0x30
  | .bne _ => 0xD0
  | .bpl _ => 0x10
  | .brk => 0x00
  | .bvc _ => 0x50
  | .bvs _ => 0x70
  | .clc => 0x18
  | .cld => 0xD8
  | .cli => 0x58
  | .clv => 0xB8
  | .cmpImm _ => 0xC9
  | .cmpZp _ => 0xC5
  | .cmpZpX _ => 0xD5
  | .cmpAbs _ => 0xCD
  | .cmpAbsX _ => 0xDD
  | .cmpAbsY _ => 0xD9
  | .cmpIndX _ => 0xC1
  | .cmpIndY _ => 0xD1
  | .cpxImm _ => 0xE0
  | .cpxZp _ => 0xE4
  | .cpxAbs _ => 0xEC
  | .cpyImm _ => 0xC0
  | .cpyZp _ => 0xC4
  | .cpyAbs _ => 0xCC
  | .decZp _ => 0xC6
  | .decZpX _ => 0xD6
  | .decAbs _ => 0xCE
  | .decAbsX _ => 0xDE
  | .dex => 0xCA
  | .dey => 0x88
  | .eorImm _ => 0x49
  | .eorZp _ => 0x45
  | .eorZpX _ => 0x55
  | .eorAbs _ => 0x4D
  | .eorAbsX _ => 0x5D
  | .eorAbsY _ => 0x59
  | .eorIndX _ => 0x41
  | .eorIndY _ => 0x51
  | .incZp _ => 0xE6
  | .incZpX _ => 0xF6
  | .incAbs _ => 0xEE
  | .incAbsX _ => 0xFE
  | .inx => 0xE8
  | .iny => 0xC8
  | .jmpAbs _ => 0x4C
  | .jmpInd _ => 0x6C
  | .jsr _ => 0x20
  | .ldaImm _ => 0xA9
  | .ldaZp _ => 0xA5
  | .ldaZpX _ => 0xB5
  | .ldaAbs _ => 0xAD
  | .ldaAbsX _ => 0xBD
  | .ldaAbsY _ => 0xB9
  | .ldaIndX _ => 0xA1
  | .ldaIndY _ => 0xB1
  | .ldxImm _ => 0xA2
  | .ldxZp _ => 0xA6
  | .ldxZpY _ => 0xB6
  | .ldxAbs _ => 0xAE
  | .ldxAbsY _ => 0xBE
  | .ldyImm _ => 0xA0
  | .ldyZp _ => 0xA4
  | .ldyZpX _ => 0xB4
  | .ldyAbs _ => 0xAC
  | .ldyAbsX _ => 0xBC
  | .lsrAcc => 0x4A
  | .lsrZp _ => 0x46
  | .lsrZpX _ => 0x56
  | .lsrAbs _ => 0x4E
  | .lsrAbsX _ => 0x5E
  | .nop => 0xEA
  | .oraImm _ => 0x09
  | .oraZp _ => 0x05
  | .oraZpX _ => 0x15
  | .oraAbs _ => 0x0D
  | .oraAbsX _ => 0x1D
  | .oraAbsY _ => 0x19
  | .oraIndX _ => 0x01
  | .oraIndY _ => 0x11
  | .pha => 0x48
  | .php => 0x08
  | .pla => 0x68
  | .plp => 0x28
  | .rolAcc => 0x2A
  | .rolZp _ => 0x26
  | .rolZpX _ => 0x36
  | .rolAbs _ => 0x2E
  | .rolAbsX _ => 0x3E
  | .rorAcc => 0x6A
  | .rorZp _ => 0x66
  | .rorZpX _ => 0x76
  | .rorAbs _ => 0x6E
  | .rorAbsX _ => 0x7E
  | .rti => 0x40
  | .rts => 0x60
  | .sbcImm _ => 0xE9
  | .sbcZp _ => 0xE5
  | .sbcZpX _ => 0xF5
  | .sbcAbs _ => 0xED
  | .sbcAbsX _ => 0xFD
  | .sbcAbsY _ => 0xF9
  | .sbcIndX _ => 0xE1
  | .sbcIndY _ => 0xF1
  | .sec => 0x38
  | .sed => 0xF8
  | .sei => 0x78
  | .staZp _ => 0x85
  | .staZpX _ => 0x95
  | .staAbs _ => 0x8D
  | .staAbsX _ => 0x9D
  | .staAbsY _ => 0x99
  | .staIndX _ => 0x81
  | .staIndY _ => 0x91
  | .stxZp _ => 0x86
  | .stxZpY _ => 0x96
  | .stxAbs _ => 0x8E
  | .styZp _ => 0x84
  | .styZpX _ => 0x94
  | .styAbs _ => 0x8C
  | .tax => 0xAA
  | .tay => 0xA8
  | .tsx => 0xBA
  | .txa => 0x8A
  | .txs => 0x9A
  | .tya => 0x98

/-- The encoder: the opcode byte, then the operand bytes, low byte first (R80, R82). -/
def encode (i : Instr) : List Byte := i.opcode :: i.operand.bytes

end Sys2Proof
end

