-- ==== Sys2Proof/Machine/Fetch.lean ====
section
/-! DEFINITION. Fetching the next instruction (40_execute_dispatch.md R101 to R103; 20_memory.md R56, R68): the opcode
at PC and the operand bytes after it, read from memory at every step, PC wrapping at 0xFFFF. -/

namespace Sys2Proof.Machine

/-- The opcode byte of the next instruction (R102). -/
def fetchOpcode (s : State) : Byte := s.read s.pc

/-- The next instruction, decoded from the bytes at PC, PC + 1 and PC + 2, of which its format uses the ones it has
(R56, R82); `none` where the opcode has no descriptor (R90). -/
def fetchInstr (s : State) : Option Instr := decodeBytes (fetchOpcode s) (s.read (s.pc + 1)) (s.read (s.pc + 2))

/-- `s` with the instruction bits `w` (the bits above `nbits` zero) stored as three bytes from PC on, the first byte
at PC. -/
def storeAtPc (s : State) (nbits w : Nat) : State :=
  ((s.write s.pc (tableByte (w % 2 ^ nbits) 0)).write (s.pc + 1) (tableByte (w % 2 ^ nbits) 1)).write (s.pc + 2)
    (tableByte (w % 2 ^ nbits) 2)

end Sys2Proof.Machine
end

