-- ==== Sys2Proof/Machine/Step.lean ====
section
/-! DEFINITION. One step (40_execute_dispatch.md R101): fetch and decode at PC, then run the instruction, or report
UndefinedOpcode with nothing written (60_exceptions.md R260). -/

namespace Sys2Proof.Machine

/-- `Step()` (R101). Its cycle count is `stepCycles`. -/
def step (s : State) : Host.Outcome State Fault Refusal :=
  match fetchInstr s with
  | some i => exec i s
  | none => .fault (.undefinedOpcode s.pc (fetchOpcode s))

/-- `s` with an instruction stored where `step` fetches (log entry 10). -/
def State.withFetchWord (s : State) (nbits w : Nat) : State := storeAtPc s nbits w

end Sys2Proof.Machine
end

