-- ==== Sys2Proof/Machine/Cycles.lean ====
section
/-! DEFINITION. The cycle accountant (40_execute_dispatch.md R104; 41_addressing_modes.md R121, R122, R134): the cycle
count of an instruction in the state it starts from. The count is no part of State (10_state.md R39). -/

namespace Sys2Proof.Machine

/-- The condition of each branch (R215 to R222); no other instruction branches. -/
def branchTaken (op : Operation) (p : Status) : Bool :=
  match op with
  | .bcc => !p.c
  | .bcs => p.c
  | .beq => p.z
  | .bne => !p.z
  | .bmi => p.n
  | .bpl => !p.n
  | .bvc => !p.v
  | .bvs => p.v
  | _ => false

/-- One cycle for a true condition (R104). -/
def oneIf (b : Bool) : Nat := if b then 1 else 0

/-- The cycles of a branch beyond its base: one when taken, one more when the target is in another page (R104,
R134). -/
def branchPenalty (op : Operation) (off : Byte) (s : State) : Nat :=
  if branchTaken op s.p then 1 + oneIf (branchCrossed s off) else 0

/-- The cycles beyond `base_cycles`, by the mark of the opcode's cell in R88 (R104). -/
def penaltyCycles (mark : Penalty) (i : Instr) (s : State) : Nat :=
  match mark, i.operand with
  | .pageCross, .source src => oneIf (sourceCrossed src s)
  | .branch, .relative off => branchPenalty i.operation off s
  | _, _ => 0

/-- The cycle count of an instruction (R104): base plus penalty, from its descriptor. -/
def cycles (i : Instr) (s : State) : Nat :=
  match descriptor i.opcode with
  | some d => d.baseCycles + penaltyCycles d.penalty i s
  | none => 0

/-- The cycle count of the step from `s`; an undefined opcode charges none (R101, R260). -/
def stepCycles (s : State) : Nat :=
  match fetchInstr s with
  | some i => cycles i s
  | none => 0

end Sys2Proof.Machine
end

