-- ==== Sys2Proof/Machine/Execute.lean ====
section
/-! DEFINITION. `Execute(cycle_budget)` (40_execute_dispatch.md R100, R105 to R111): steps against a budget that is
tested between instructions only. -/

namespace Sys2Proof.Machine

/-- What `Execute` answers, with the state at its return: always a step boundary (R109). -/
inductive ExecuteResult where
  /-- `Ok(used)`: the cycles actually consumed (R100). -/
  | ok (used : Int) (s : State)
  /-- `Error(UndefinedOpcode(addr, byte), used)` with the total of the completed instructions (R111). -/
  | undefinedOpcode (addr : Addr) (byte : Byte) (used : Int) (s : State)
  /-- No result: the budget is out of range (R110). -/
  | refused (r : Refusal)
  deriving DecidableEq, Repr

/-- The loop of R100. `fuel` bounds the number of steps; every step costs at least 2 cycles, so a fuel of `budget`
is never used up (R108). -/
def executeLoop : Nat → Int → Int → State → ExecuteResult
  | 0, _, used, s => .ok used s
  | fuel + 1, budget, used, s =>
    if budget - used > 0 then
      match step s with
      | .next s' => executeLoop fuel budget (used + stepCycles s) s'
      | .fault (.undefinedOpcode addr byte) => .undefinedOpcode addr byte used s
      | .refused r => .refused r
    else .ok used s

/-- `Execute(cycle_budget: i64)` (R100): the budget is a 64-bit word read as a signed number; above 2^63 - 8 it is
refused (R110). -/
def execute (budget : BitVec 64) (s : State) : ExecuteResult :=
  if budget.toInt > Config.maxBudget then .refused .budgetTooLarge
  else executeLoop budget.toInt.toNat budget.toInt 0 s

end Sys2Proof.Machine
end

