-- ==== Sys2Proof/Machine/Caller.lean ====
section
/-! DEFINITION. What the host may do between calls (00_scope.md R7, R8, R10; 92_eei_decisions.md D3) and the image
loader at the interface (70_reset_and_hazards.md R296). The block itself never does these; a run is a list of them. -/

namespace Sys2Proof.Machine

/-- A register the host may write. -/
inductive RegWrite where
  | a (v : Byte) | x (v : Byte) | y (v : Byte) | sp (v : Byte) | pc (v : Addr) | p (v : Status)
  deriving DecidableEq, Repr

/-- The host's actions (R8, R10). -/
inductive CallerAction where
  /-- Call `Reset` with the block's `RESET_S` (R290). -/
  | reset (resetS : Byte)
  /-- Call `Execute` with a budget (R100). -/
  | execute (budget : BitVec 64)
  /-- Write a register or the flags (R10, D3). -/
  | writeReg (w : RegWrite)
  /-- Write a byte of memory (R10). -/
  | writeByte (addr : Addr) (v : Byte)
  /-- The memory's own `reset()`, which zero-fills all 65536 bytes (R7). -/
  | zeroMemory
  /-- Load an image (R296). -/
  | loadImage (img : List Byte)
  deriving DecidableEq, Repr

/-- Write one register. -/
def applyRegWrite (w : RegWrite) (s : State) : State :=
  match w with
  | .a v => { s with a := v }
  | .x v => { s with x := v }
  | .y v => { s with y := v }
  | .sp v => { s with sp := v }
  | .pc v => { s with pc := v }
  | .p v => { s with p := v }

/-- Write the bytes of a list at ascending addresses (R296). -/
def storeBytes : List Byte → Addr → State → State
  | [], _, s => s
  | v :: vs, addr, s => storeBytes vs (addr + 1) (s.write addr v)

/-- The copy of `n` bytes at `load` meets none of the cases R296 leaves undecided: it neither touches 0xFFFC and
0xFFFD nor runs past 0xFFFF. -/
def copyDecided (load n : Nat) : Bool :=
  decide (n = 0) || decide (load + n ≤ 0xFFFC) || (decide (0xFFFE ≤ load) && decide (load + n ≤ 0x10000))

/-- The image loader (R296): the first two bytes are the load address, little-endian, which also goes into the reset
vector; the rest is copied there. The cases the rule leaves undecided are refused (log entry 12). -/
def loadImage (img : List Byte) (s : State) : Host.Outcome State Fault Refusal :=
  match img with
  | lo :: hi :: body =>
    if copyDecided (joinBytes hi lo).toNat body.length then
      .next (storeBytes body (joinBytes hi lo)
        ((s.write Config.resetVector lo).write (Config.resetVector + 1) hi))
    else .refused .imageUndecided
  | _ => .refused .imageUndecided

/-- One action of the host. An `Execute` that ends in UndefinedOpcode leaves the state of R111, which the host goes on
from; the error itself is in `execute`'s result. -/
def applyAction (act : CallerAction) (s : State) : Host.Outcome State Fault Refusal :=
  match act with
  | .reset resetS => .next (s.resetEntry resetS)
  | .execute budget =>
    match execute budget s with
    | .ok _ s' => .next s'
    | .undefinedOpcode _ _ _ s' => .next s'
    | .refused r => .refused r
  | .writeReg w => .next (applyRegWrite w s)
  | .writeByte addr v => .next (s.write addr v)
  | .zeroMemory => .next { s with mem := [] }
  | .loadImage img => loadImage img s

end Sys2Proof.Machine
end

