-- ==== Sys2Proof/Safety.lean ====
section
/-! DEFINITION. The words claims are stated in: the invariant of states, reachability by steps, runs that meet no
undefined opcode (60_exceptions.md R260, R261), and the spec's tables of what each instruction writes and costs. -/

namespace Sys2Proof.Machine

/-- The state invariant: the memory is in its canonical form. Every other field admits every value (R21 to R27, R50). -/
def State.Inv (s : State) : Bool := Memory.wf s.mem

/-- The byte at PC has a descriptor (R90). -/
def legalOpcode (s : State) : Bool := (descriptor (fetchOpcode s)).isSome

/-- `t` is `s` after some number of steps (R109: the iteration of `Step`). -/
inductive Reaches : State → State → Prop where
  | refl (s : State) : Reaches s s
  | step {s t u : State} (h : Reaches s t) (hs : Machine.step t = .next u) : Reaches s u

/-- A safe run: no state on it has an undefined opcode at PC, so no step of it faults (R261). -/
def SafeRun (s : State) : Prop := ∀ t, Reaches s t → legalOpcode t = true

/-- The 105 undefined opcode bytes, as R90 lists them. -/
def undefinedOpcodeBytes : List Byte :=
  [0x02, 0x03, 0x04, 0x07, 0x0B, 0x0C, 0x0F, 0x12, 0x13, 0x14, 0x17, 0x1A, 0x1B, 0x1C, 0x1F] ++
  [0x22, 0x23, 0x27, 0x2B, 0x2F, 0x32, 0x33, 0x34, 0x37, 0x3A, 0x3B, 0x3C, 0x3F, 0x42, 0x43] ++
  [0x44, 0x47, 0x4B, 0x4F, 0x52, 0x53, 0x54, 0x57, 0x5A, 0x5B, 0x5C, 0x5F, 0x62, 0x63, 0x64] ++
  [0x67, 0x6B, 0x6F, 0x72, 0x73, 0x74, 0x77, 0x7A, 0x7B, 0x7C, 0x7F, 0x80, 0x82, 0x83, 0x87] ++
  [0x89, 0x8B, 0x8F, 0x92, 0x93, 0x97, 0x9B, 0x9C, 0x9E, 0x9F, 0xA3, 0xA7, 0xAB, 0xAF, 0xB2] ++
  [0xB3, 0xB7, 0xBB, 0xBF, 0xC2, 0xC3, 0xC7, 0xCB, 0xCF, 0xD2, 0xD3, 0xD4, 0xD7, 0xDA, 0xDB] ++
  [0xDC, 0xDF, 0xE2, 0xE3, 0xE7, 0xEB, 0xEF, 0xF2, 0xF3, 0xF4, 0xF7, 0xFA, 0xFB, 0xFC, 0xFF]

/-- The eight flags by name (R27). -/
inductive Flag where
  | n | v | u | b | d | i | z | c
  deriving DecidableEq, Repr

/-- The value of a flag. -/
def Status.get (p : Status) : Flag → Bool
  | .n => p.n
  | .v => p.v
  | .u => p.u
  | .b => p.b
  | .d => p.d
  | .i => p.i
  | .z => p.z
  | .c => p.c

/-- The flags an instruction writes: the rows of R37. -/
def flagsWritten : Operation → List Flag
  | .adc | .sbc => [.n, .v, .z, .c]
  | .and | .ora | .eor => [.n, .z]
  | .cmp | .cpx | .cpy => [.n, .z, .c]
  | .bit => [.n, .v, .z]
  | .lda | .ldx | .ldy => [.n, .z]
  | .tax | .tay | .txa | .tya | .tsx => [.n, .z]
  | .txs => []
  | .sta | .stx | .sty => []
  | .inc | .dec | .inx | .iny | .dex | .dey => [.n, .z]
  | .asl | .lsr | .rol | .ror => [.n, .z, .c]
  | .jmp | .jsr | .rts => []
  | .bcc | .bcs | .beq | .bne | .bmi | .bpl | .bvc | .bvs => []
  | .pha | .php => []
  | .pla => [.n, .z]
  | .plp => [.n, .v, .d, .i, .z, .c]
  | .clc | .sec => [.c]
  | .cli | .sei => [.i]
  | .cld | .sed => [.d]
  | .clv => [.v]
  | .nop => []
  | .brk => [.i]
  | .rti => [.n, .v, .d, .i, .z, .c]

/-- The instructions that write A, in any form or in their accumulator form (R21). -/
def writesA (i : Instr) : Bool :=
  decide (i.operation ∈ [.lda, .txa, .tya, .pla, .adc, .sbc, .and, .ora, .eor]) || decide (i.operand = .accumulator)

/-- The instructions that write X (R22). -/
def writesX (i : Instr) : Bool := decide (i.operation ∈ [.ldx, .tax, .tsx, .inx, .dex])

/-- The instructions that write Y (R23). -/
def writesY (i : Instr) : Bool := decide (i.operation ∈ [.ldy, .tay, .iny, .dey])

/-- The instructions that write S: TXS and every push and pop (R24). -/
def writesS (i : Instr) : Bool := decide (i.operation ∈ [.txs, .pha, .php, .pla, .plp, .jsr, .rts, .brk, .rti])

/-- The addresses an instruction stores to (R52): the effective address of a store or a read-modify-write, the stack
slots of a push; none for the others. -/
def storedAddrs (i : Instr) (s : State) : List Addr :=
  match i.operation, i.operand with
  | .sta, .source (.mem m) | .stx, .source (.mem m) | .sty, .source (.mem m) => [effAddr m s]
  | .inc, .source (.mem m) | .dec, .source (.mem m) => [effAddr m s]
  | .asl, .source (.mem m) | .lsr, .source (.mem m) | .rol, .source (.mem m) | .ror, .source (.mem m) => [effAddr m s]
  | .pha, _ | .php, _ => [stackAddr s.sp]
  | .jsr, _ => [stackAddr s.sp, stackAddr (s.sp - 1)]
  | .brk, _ => [stackAddr s.sp, stackAddr (s.sp - 1), stackAddr (s.sp - 2)]
  | _, _ => []

/-- The byte an operation stores at its effective address, where the byte `v` was: the register of a store (R173 to
R175), the modified byte of a read-modify-write (R191, R192, R197 to R200); none for an operation that stores none
there. -/
def storedByte (op : Operation) (v : Byte) (s : State) : Option Byte :=
  match op with
  | .sta => some s.a
  | .stx => some s.x
  | .sty => some s.y
  | .inc => some (v + 1)
  | .dec => some (v - 1)
  | .asl => some (BitVec.ofNat 8 (2 * v.toNat))
  | .lsr => some (BitVec.ofNat 8 (v.toNat / 2))
  | .rol => some (BitVec.ofNat 8 (2 * v.toNat + s.p.c.toNat))
  | .ror => some (BitVec.ofNat 8 (v.toNat / 2 + 128 * s.p.c.toNat))
  | _ => none

/-- The bytes an operation pushes, with their slots (R212, R230, R231, R242). -/
def pushedCells (op : Operation) (s : State) : List (Addr × Byte) :=
  match op with
  | .pha => [(stackAddr s.sp, s.a)]
  | .php => [(stackAddr s.sp, s.p.toByte ||| 0x30)]
  | .jsr => [(stackAddr s.sp, hi8 (s.pc + 2)), (stackAddr (s.sp - 1), lo8 (s.pc + 2))]
  | .brk =>
    [(stackAddr s.sp, hi8 (s.pc + 2)), (stackAddr (s.sp - 1), lo8 (s.pc + 2)),
     (stackAddr (s.sp - 2), s.p.toByte ||| 0x30)]
  | _ => []

/-- What an instruction stores, as address and byte (R52). The addresses are those of `storedAddrs`. -/
def storedCells (i : Instr) (s : State) : List (Addr × Byte) :=
  match i.operand with
  | .source (.mem m) =>
    match storedByte i.operation (s.read (effAddr m s)) s with
    | some b => [(effAddr m s, b)]
    | none => pushedCells i.operation s
  | _ => pushedCells i.operation s

/-- The byte the list gives for an address, or else the byte of `s`. -/
def byteOver (cells : List (Addr × Byte)) (s : State) (addr : Addr) : Byte :=
  match cells with
  | [] => s.read addr
  | (k, v) :: rest => if addr = k then v else byteOver rest s addr

/-- The byte at an address after an instruction: the one it stores there, or else the one of before (R65). -/
def byteAfter (i : Instr) (s : State) (addr : Addr) : Byte := byteOver (storedCells i s) s addr

/-- The cycles of a reading instruction (R300): 2, 3, 4, 4, 4+p, 6, 5+p by mode. -/
def readCycles (src : Source) (s : State) : Nat :=
  match src with
  | .imm _ => 2
  | .mem m =>
    match m with
    | .zp _ => 3
    | .zpX _ | .zpY _ | .abs _ => 4
    | .absX _ | .absY _ => if pageCrossed m s then 5 else 4
    | .indX _ => 6
    | .indY _ => if pageCrossed m s then 6 else 5

/-- The cycles of a store (R300), fixed by the mode. -/
def storeCycles : MemOperand → Nat
  | .zp _ => 3
  | .zpX _ | .zpY _ | .abs _ => 4
  | .absX _ | .absY _ => 5
  | .indX _ | .indY _ => 6

/-- The cycles of a read-modify-write (R190, R300): ZP 5, ZPX 6, ABS 6, ABSX 7. No other mode exists for one. -/
def modifyCycles : MemOperand → Nat
  | .zp _ => 5
  | .zpX _ | .abs _ => 6
  | .absX _ => 7
  | .zpY _ | .absY _ | .indX _ | .indY _ => 0

/-- The instruction's format and opcode byte stand among the cells that its rule lists. -/
def HasCell (i : Instr) (cells : List (Mode × Byte)) : Prop := (i.operand.mode, i.opcode) ∈ cells

end Sys2Proof.Machine
end

