-- ==== Sys2Proof/Certificates/Slice0/Obligations.lean ====
section
/-! DEFINITION. The obligations: what the provers are asked to prove of the model. Each docstring says which rule of
spec/ the statement formalises. No statement rests on a particular value of the free `Config.decimalArith`. -/

open Sys2Proof Sys2Proof.Machine

/-- For every state s: when the three bytes at PC decode to an instruction i, step s is exec i s, exec i s is a next
state, and the step charges cycles i s; when they decode to an undefined opcode op, op is the byte at PC, the
step is the fault UndefinedOpcode(PC, op), and no cycle is charged; the decoder never runs out of bytes. The
step adds nothing around exec: the move of PC past the instruction is in exec. (R101) -/
def Obligations.StepRunsDecodedInstruction : Prop :=
  ∀ s : State,
    (∀ i rest, decode [s.read s.pc, s.read (s.pc + 1), s.read (s.pc + 2)] = .instr i rest →
      step s = exec i s ∧ (∃ t, exec i s = .next t) ∧ stepCycles s = cycles i s) ∧
    (∀ op, decode [s.read s.pc, s.read (s.pc + 1), s.read (s.pc + 2)] = .undefinedOpcode op →
      op = s.read s.pc ∧ step s = .fault (.undefinedOpcode s.pc op) ∧ stepCycles s = 0) ∧
    decode [s.read s.pc, s.read (s.pc + 1), s.read (s.pc + 2)] ≠ .truncated

/-- For every state: if the byte at PC is one of the 105 bytes that R90 lists, the step is the fault UndefinedOpcode
carrying PC and the byte, with no cycle charged; if it is any other byte, whatever the operand bytes are, the
step answers a next state. (R90) -/
def Obligations.UndefinedBytesFaultAndOthersRun : Prop :=
  ∀ s : State,
    (s.read s.pc ∈ undefinedOpcodeBytes →
      step s = .fault (.undefinedOpcode s.pc (s.read s.pc)) ∧ stepCycles s = 0) ∧
    (s.read s.pc ∉ undefinedOpcodeBytes → ∃ t, step s = .next t)

/-- For every instruction i of all 151 and every state s, exec i s is a next state. Wraps, page crossings, stack
overflow, invalid BCD digits and writes anywhere are defined results, not errors. (60_exceptions.md section 1
(R261, R262), 40_execute_dispatch.md section 1 (R101)) -/
def Obligations.EveryInstructionCompletes : Prop :=
  ∀ (i : Instr) (s : State), ∃ t, exec i s = .next t

/-- For every instruction i with every operand value and every list of bytes after it, decode (encode i ++ rest) is
the instruction i with rest left over. (30_encoding.md sections 1 to 3 (R80, R82, R83, R84, R85, R88)) -/
def Obligations.DecodeOfEncodeIsTheInstruction : Prop :=
  ∀ (i : Instr) (rest : List Byte), decode (encode i ++ rest) = .instr i rest

/-- For every list of bytes: if it decodes to the instruction i with rest left over, then the bytes are encode i
followed by rest. No bit of an encoding is dropped and no two encodings share an instruction. (30_encoding.md
sections 1 to 4 (R80, R82, R83, R84, R85, R88, R91)) -/
def Obligations.EncodeOfDecodeIsTheBytes : Prop :=
  ∀ (bs : List Byte) (i : Instr) (rest : List Byte), decode bs = .instr i rest → encode i ++ rest = bs

/-- The byte sequences of the table of R93 and a few of the vectors, one at least per family, decode to the
instructions the spec writes beside them. (30_encoding.md section 5 (R93), section 4 (R91), 95_test_vectors.md
Part 2) -/
def Obligations.SpecWordsDecode : Prop :=
  decode [0x18] = .instr .clc [] ∧ decode [0x0A] = .instr .aslAcc [] ∧
  decode [0xA2, 0x12] = .instr (.ldxImm 0x12) [] ∧ decode [0xA5, 0x10] = .instr (.ldaZp 0x10) [] ∧
  decode [0xB5, 0x10] = .instr (.ldaZpX 0x10) [] ∧ decode [0xB6, 0x10] = .instr (.ldxZpY 0x10) [] ∧
  decode [0xAD, 0x12, 0x83] = .instr (.ldaAbs 0x8312) [] ∧ decode [0x9D, 0x00, 0x02] = .instr (.staAbsX 0x0200) [] ∧
  decode [0xB9, 0x00, 0x02] = .instr (.ldaAbsY 0x0200) [] ∧ decode [0x6C, 0xFF, 0x30] = .instr (.jmpInd 0x30FF) [] ∧
  decode [0xA1, 0x10] = .instr (.ldaIndX 0x10) [] ∧ decode [0xB1, 0x10] = .instr (.ldaIndY 0x10) [] ∧
  decode [0xF0, 0x02] = .instr (.beq 0x02) [] ∧ decode [0x00, 0xEA] = .instr .brk [0xEA] ∧
  decode [0x7D, 0xFF, 0x02] = .instr (.adcAbsX 0x02FF) [] ∧ decode [0x20, 0x10, 0x80] = .instr (.jsr 0x8010) [] ∧
  decode [0x24, 0x10] = .instr (.bitZp 0x10) [] ∧ decode [0xDE, 0x00, 0x02] = .instr (.decAbsX 0x0200) [] ∧
  decode [0x48] = .instr .pha [] ∧ decode [0xBA] = .instr .tsx [] ∧ decode [0xEB, 0x01] = .undefinedOpcode 0xEB

/-- For every state s whose memory is in canonical form (addresses strictly rising and below 65536, no byte listed
that an unlisted address reads as): if step s answers a next state t, the memory of t is in canonical form. The
canonical form is the model's own representation of the 65536 bytes. (20_memory.md sections 1 and 5 (R50, R57,
R65), 40_execute_dispatch.md section 1 (R101)) -/
def Obligations.StepKeepsMemoryCanonical : Prop :=
  ∀ s t : State, s.Inv = true → step s = .next t → t.Inv = true

/-- State.reset meets the invariant, and the Reset entry point keeps it in every state and for every RESET_S.
(10_state.md section 6 (R41), 20_memory.md section 1 (R50)) -/
def Obligations.ResetMemoryCanonical : Prop :=
  State.reset.Inv = true ∧ ∀ (resetS : Byte) (s : State), s.Inv = true → (State.resetEntry resetS s).Inv = true

/-- For every state and every RESET_S: after Reset A, X, Y are 0, S is RESET_S, every flag is 0, PC is the byte at
0xFFFC plus 256 times the byte at 0xFFFD, the memory is the same; a state with the same memory but any other
registers gives the same result; a second Reset changes nothing. (R290, R41) -/
def Obligations.ResetLeavesTheSpecState : Prop :=
  ∀ (resetS : Byte) (s : State), ∃ t, State.resetEntry resetS s = t ∧
    t.a = 0 ∧ t.x = 0 ∧ t.y = 0 ∧ t.sp = resetS ∧ (∀ f, t.p.get f = false) ∧
    t.pc.toNat = (s.read 0xFFFC).toNat + 256 * (s.read 0xFFFD).toNat ∧ t.mem = s.mem ∧
    (∀ s' : State, s'.mem = s.mem → State.resetEntry resetS s' = t) ∧ State.resetEntry resetS t = t

/-- State.reset is the Reset entry point applied, with the model's RESET_S, to any state whose memory lists nothing;
its registers and flags are 0, and every address reads 0. THE MODEL'S CHOICE: that an unlisted byte reads 0x00
(log entry 1) and that RESET_S is 0xFF (log entry 2); PC = 0 follows from the first (log entry 4). (10_state.md
section 6 (R41), 92_eei_decisions.md D6, log entries 1, 2 and 4) -/
def Obligations.ResetStateOfTheModel : Prop :=
  (∀ s : State, State.reset = State.resetEntry Config.resetS { s with mem := [] }) ∧
  State.reset.sp = 0xFF ∧ State.reset.pc = 0 ∧ (∀ addr, State.reset.read addr = 0)

/-- For every status, bit 7 of its byte is N, 6 V, 5 U, 4 B, 3 D, 2 I, 1 Z, 0 C; the byte PHP and BRK push is that
byte with bits 5 and 4 set and the other six bits the live flags. (R28) -/
def Obligations.StatusByteLayout : Prop :=
  ∀ p : Status,
    (p.toByte.getLsbD 7 = p.n ∧ p.toByte.getLsbD 6 = p.v ∧ p.toByte.getLsbD 5 = p.u ∧ p.toByte.getLsbD 4 = p.b ∧
      p.toByte.getLsbD 3 = p.d ∧ p.toByte.getLsbD 2 = p.i ∧ p.toByte.getLsbD 1 = p.z ∧ p.toByte.getLsbD 0 = p.c) ∧
    (p.pushed.getLsbD 7 = p.n ∧ p.pushed.getLsbD 6 = p.v ∧ p.pushed.getLsbD 5 = true ∧ p.pushed.getLsbD 4 = true ∧
      p.pushed.getLsbD 3 = p.d ∧ p.pushed.getLsbD 2 = p.i ∧ p.pushed.getLsbD 1 = p.z ∧ p.pushed.getLsbD 0 = p.c)

/-- For every state s, if step s answers a next state t, the flags B and U of t are those of s. They are written by
Reset and by the host only. (10_state.md section 4 (R33, R34)) -/
def Obligations.LiveBreakAndUnusedAreNeverWritten : Prop :=
  ∀ s t : State, step s = .next t → t.p.b = s.p.b ∧ t.p.u = s.p.u

/-- For every state s and all values b, u: if step s answers t, then the step from s with its B and U replaced by b
and u answers t with its B and U replaced by b and u, in every register, flag and byte of memory, the pushed
status bytes included. (10_state.md section 4 (R33, R34)) -/
def Obligations.LiveBreakAndUnusedAreUnobservable : Prop :=
  ∀ (s t : State) (b u : Bool), step s = .next t →
    step { s with p := { s.p with b := b, u := u } } = .next { t with p := { t.p with b := b, u := u } }

/-- For every instruction i and state s with exec i s = t: unless i is PHP or BRK, the instruction from s with I
replaced answers a state that is t but for I; unless i is ADC, SBC, PHP or BRK, the instruction from s with D
replaced answers a state that is t but for D; if i is ADC or SBC, it answers a state that is t but for D, A, N,
V, Z and C; if i is PHP or BRK, from s with I replaced, and from s with D replaced, it answers a state with the
A, X, Y, S, PC and flags of t but for the flag replaced, and the bytes of t but for the slot of the pushed
status, 0x0100 + S for PHP and 0x0100 + (S - 2) mod 256 for BRK. (10_state.md section 4 (R31, R32),
60_exceptions.md section 2 (R266)) -/
def Obligations.InterruptAndDecimalFlagsInfluenceOnly : Prop :=
  ∀ (i : Instr) (s t : State) (f : Bool), exec i s = .next t →
    (i.operation ∉ [.php, .brk] →
      ∃ t', exec i { s with p := { s.p with i := f } } = .next t' ∧ t = { t' with p := { t'.p with i := t.p.i } }) ∧
    (i.operation ∉ [.adc, .sbc, .php, .brk] →
      ∃ t', exec i { s with p := { s.p with d := f } } = .next t' ∧ t = { t' with p := { t'.p with d := t.p.d } }) ∧
    (i.operation ∈ [.adc, .sbc] →
      ∃ t', exec i { s with p := { s.p with d := f } } = .next t' ∧
        t = { t' with a := t.a, p := { t'.p with n := t.p.n, v := t.p.v, z := t.p.z, c := t.p.c, d := t.p.d } }) ∧
    (∀ slot : Addr, (i = .php ∧ slot = stackAddr s.sp) ∨ (i = .brk ∧ slot = stackAddr (s.sp - 2)) →
      (∃ t', exec i { s with p := { s.p with i := f } } = .next t' ∧
        t = { t' with mem := t.mem, p := { t'.p with i := t.p.i } } ∧
        ∀ addr, addr ≠ slot → t'.read addr = t.read addr) ∧
      (∃ t', exec i { s with p := { s.p with d := f } } = .next t' ∧
        t = { t' with mem := t.mem, p := { t'.p with d := t.p.d } } ∧
        ∀ addr, addr ≠ slot → t'.read addr = t.read addr))

/-- For every instruction i of all 151, every state s, and every flag f that R37 does not list for i: if exec i s
answers t, f is the same in t as in s. (10_state.md section 4, the table of R37) -/
def Obligations.FlagsUnchangedUnlessListed : Prop :=
  ∀ (i : Instr) (s t : State) (f : Flag), exec i s = .next t → f ∉ flagsWritten i.operation → t.p.get f = s.p.get f

/-- For every instruction i of all 151 and every state s with exec i s = t: A is unchanged unless i is LDA, TXA,
TYA, PLA, ADC, SBC, AND, ORA, EOR or an accumulator shift; X unless LDX, TAX, TSX, INX, DEX; Y unless LDY, TAY,
INY, DEY; S unless TXS, PHA, PHP, PLA, PLP, JSR, RTS, BRK, RTI. (10_state.md section 2 (R21, R22, R23, R24)) -/
def Obligations.RegistersUnchangedUnlessListed : Prop :=
  ∀ (i : Instr) (s t : State), exec i s = .next t →
    (writesA i = false → t.a = s.a) ∧ (writesX i = false → t.x = s.x) ∧
    (writesY i = false → t.y = s.y) ∧ (writesS i = false → t.sp = s.sp)

/-- For every instruction i of all 151 and every state s with exec i s = t: an address outside the bytes i stores to
reads in t as in s. The bytes are: the effective address for STA, STX, STY, INC, DEC and the memory shifts; the
slot at S for PHA and PHP; the slots at S and S - 1 for JSR; those at S, S - 1 and S - 2 for BRK; none for any
other instruction, whose every byte reads as before. (20_memory.md section 1 (R52), section 2 (R57)) -/
def Obligations.MemoryUnchangedOutsideStoredBytes : Prop :=
  ∀ (i : Instr) (s t : State) (addr : Addr), exec i s = .next t → addr ∉ storedAddrs i s → t.read addr = s.read addr

/-- For every instruction i and state s with exec i s = t: outside the jumps, branches, BRK and RTI, PC is a +
length mod 65536; JMP and JSR leave the target; RTS the popped word plus 1; a branch a + 2 plus its signed
offset when its condition holds, else a + 2; BRK the word at 0xFFFE as it was before the pushes; RTI the word
above the popped status. (10_state.md section 3 (R25, R26)) -/
def Obligations.ProgramCounterAfterEachInstruction : Prop :=
  ∀ (i : Instr) (s t : State), exec i s = .next t →
    (i.operation ∉ [.jmp, .jsr, .rts, .bcc, .bcs, .beq, .bne, .bmi, .bpl, .bvc, .bvs, .brk, .rti] →
      t.pc.toNat = (s.pc.toNat + i.length) % 65536) ∧
    (∀ w, i = .jmpAbs w → t.pc = w) ∧
    (∀ w, i = .jmpInd w → t.pc = s.pageRead16 w) ∧
    (∀ w, i = .jsr w → t.pc = w) ∧
    (i = .rts → t.pc.toNat = (s.pop16.1.toNat + 1) % 65536) ∧
    (∀ off, i.operand = .relative off → (t.pc.toNat : Int) =
      if branchTaken i.operation s.p then (s.pc.toNat + 2 + off.toInt) % 65536 else (s.pc.toNat + 2) % 65536) ∧
    (i = .brk → t.pc = s.read16 0xFFFE) ∧
    (i = .rti → t.pc = s.pop8.2.pop16.1)

/-- For every operand byte z and state: the effective address of ZP is z, of ZPX (z + X) mod 256, of ZPY (z + Y) mod
256, and none of them crosses a page; an instruction with a ZPY operand is LDX (B6) or STX (96). (R126, R127) -/
def Obligations.ZeroPageModesWrapInPageZero : Prop :=
  (∀ (z : Byte) (s : State),
    (effAddr (.zp z) s).toNat = z.toNat ∧
    (effAddr (.zpX z) s).toNat = (z.toNat + s.x.toNat) % 256 ∧
    (effAddr (.zpY z) s).toNat = (z.toNat + s.y.toNat) % 256 ∧
    pageCrossed (.zp z) s = false ∧ pageCrossed (.zpX z) s = false ∧ pageCrossed (.zpY z) s = false) ∧
  (∀ (i : Instr) (z : Byte), i.operand = .source (.mem (.zpY z)) →
    (i = .ldxZpY z ∧ i.opcode = 0xB6) ∨ (i = .stxZpY z ∧ i.opcode = 0x96))

/-- For every operand word w and state: the effective address of ABS is w and does not cross; of ABSX it is (w + X)
mod 65536, of ABSY (w + Y) mod 65536; each crosses exactly when the high byte of the sum differs from that of w.
(R128, R129, R130) -/
def Obligations.AbsoluteModesWrapAtTheTop : Prop :=
  ∀ (w : Addr) (s : State),
    effAddr (.abs w) s = w ∧ pageCrossed (.abs w) s = false ∧
    (effAddr (.absX w) s).toNat = (w.toNat + s.x.toNat) % 65536 ∧
    pageCrossed (.absX w) s = decide ((w.toNat + s.x.toNat) % 65536 / 256 ≠ w.toNat / 256) ∧
    (effAddr (.absY w) s).toNat = (w.toNat + s.y.toNat) % 65536 ∧
    pageCrossed (.absY w) s = decide ((w.toNat + s.y.toNat) % 65536 / 256 ≠ w.toNat / 256)

/-- For every operand byte z and state, with p = (z + X) mod 256 for INDX and p = z for INDY: the pointer is the
byte at p plus 256 times the byte at (p + 1) mod 256; INDX addresses the pointer and never crosses; INDY
addresses (pointer + Y) mod 65536 and crosses exactly when the high byte changed. (R131, R132, R63) -/
def Obligations.IndirectModesReadTheirPointerInPageZero : Prop :=
  ∀ (z : Byte) (s : State),
    let pointer := fun p : Nat =>
      (s.read (BitVec.ofNat 16 p)).toNat + 256 * (s.read (BitVec.ofNat 16 ((p + 1) % 256))).toNat
    (effAddr (.indX z) s).toNat = pointer ((z.toNat + s.x.toNat) % 256) ∧ pageCrossed (.indX z) s = false ∧
    (effAddr (.indY z) s).toNat = (pointer z.toNat + s.y.toNat) % 65536 ∧
    pageCrossed (.indY z) s = decide ((pointer z.toNat + s.y.toNat) % 65536 / 256 ≠ pointer z.toNat / 256)

/-- For every memory operand and state, with base and index the values the mode adds: the effective address is (base
+ index) mod 65536, and crossed, the comparison of the two high bytes, holds exactly when the low byte of the
base plus the index exceeds 0xFF. (R121) -/
def Obligations.PageCrossingIsTheLowByteCarry : Prop :=
  ∀ (m : MemOperand) (s : State),
    (effAddr m s).toNat = ((baseAddr m s).toNat + (baseIndex m s).toNat) % 65536 ∧
    pageCrossed m s = (hi8 (effAddr m s) != hi8 (baseAddr m s)) ∧
    (pageCrossed m s = true ↔ (baseAddr m s).toNat % 256 + (baseIndex m s).toNat > 0xFF)

/-- For every LDA, LDX or LDY in every mode and every state, exec answers the state with the register set to the
operand byte, Z exactly when the byte is 0, N its bit 7, PC past the instruction, and every other register, flag
and byte of memory as before; the cycles are 2, 3, 4, 4, 4+p, 6, 5+p by mode, and the modes and opcode bytes are
those the rules list. (R170, R171, R172, R140) -/
def Obligations.LoadsReplaceTheRegister : Prop :=
  ∀ (i : Instr) (s : State),
    (i.operation = .lda → ∃ src, i.operand = .source src ∧
      exec i s = .next
        { s with a := sourceValue src s, pc := s.pc + BitVec.ofNat 16 i.length,
                 p := { s.p with z := sourceValue src s == 0, n := (sourceValue src s).getLsbD 7 } } ∧
      cycles i s = readCycles src s ∧
      HasCell i [(.immediate, 0xA9), (.zeroPage, 0xA5), (.zeroPageX, 0xB5), (.absolute, 0xAD),
          (.absoluteX, 0xBD), (.absoluteY, 0xB9), (.indirectX, 0xA1), (.indirectY, 0xB1)]) ∧
    (i.operation = .ldx → ∃ src, i.operand = .source src ∧
      exec i s = .next
        { s with x := sourceValue src s, pc := s.pc + BitVec.ofNat 16 i.length,
                 p := { s.p with z := sourceValue src s == 0, n := (sourceValue src s).getLsbD 7 } } ∧
      cycles i s = readCycles src s ∧
      HasCell i [(.immediate, 0xA2), (.zeroPage, 0xA6), (.zeroPageY, 0xB6), (.absolute, 0xAE),
          (.absoluteY, 0xBE)]) ∧
    (i.operation = .ldy → ∃ src, i.operand = .source src ∧
      exec i s = .next
        { s with y := sourceValue src s, pc := s.pc + BitVec.ofNat 16 i.length,
                 p := { s.p with z := sourceValue src s == 0, n := (sourceValue src s).getLsbD 7 } } ∧
      cycles i s = readCycles src s ∧
      HasCell i [(.immediate, 0xA0), (.zeroPage, 0xA4), (.zeroPageX, 0xB4), (.absolute, 0xAC),
          (.absoluteX, 0xBC)])

/-- For every STA, STX or STY in every mode and every state, exec answers the state with the register's byte written
at the effective address and PC past the instruction; no flag and no register changes; after it the effective
address reads that byte and every other address reads as before; the cycles are 3, 4, 4, 5, 5, 6, 6 by mode, and
the modes and opcode bytes are those the rules list. (R173, R174, R175) -/
def Obligations.StoresWriteOneByte : Prop :=
  ∀ (i : Instr) (s : State),
    (i.operation = .sta → ∃ m, i.operand = .source (.mem m) ∧
      exec i s = .next { s.write (effAddr m s) s.a with pc := s.pc + BitVec.ofNat 16 i.length } ∧
      (∀ t addr, exec i s = .next t →
        t.read addr = if addr = effAddr m s then s.a else s.read addr) ∧
      cycles i s = storeCycles m ∧
      HasCell i [(.zeroPage, 0x85), (.zeroPageX, 0x95), (.absolute, 0x8D), (.absoluteX, 0x9D),
          (.absoluteY, 0x99), (.indirectX, 0x81), (.indirectY, 0x91)]) ∧
    (i.operation = .stx → ∃ m, i.operand = .source (.mem m) ∧
      exec i s = .next { s.write (effAddr m s) s.x with pc := s.pc + BitVec.ofNat 16 i.length } ∧
      (∀ t addr, exec i s = .next t →
        t.read addr = if addr = effAddr m s then s.x else s.read addr) ∧
      cycles i s = storeCycles m ∧
      HasCell i [(.zeroPage, 0x86), (.zeroPageY, 0x96), (.absolute, 0x8E)]) ∧
    (i.operation = .sty → ∃ m, i.operand = .source (.mem m) ∧
      exec i s = .next { s.write (effAddr m s) s.y with pc := s.pc + BitVec.ofNat 16 i.length } ∧
      (∀ t addr, exec i s = .next t →
        t.read addr = if addr = effAddr m s then s.y else s.read addr) ∧
      cycles i s = storeCycles m ∧
      HasCell i [(.zeroPage, 0x84), (.zeroPageX, 0x94), (.absolute, 0x8C)])

/-- In every state: TAX sets X to A, TAY Y to A, TXA A to X, TYA A to Y, TSX X to S, each with Z and N from the byte
copied; TXS sets S to X and changes no flag; PC moves by 1, nothing else changes, 2 cycles each. (R176, R177,
R178, R179, R180, R181) -/
def Obligations.TransfersCopyTheRegister : Prop :=
  ∀ s : State,
    (exec .tax s = .next { s with x := s.a, pc := s.pc + 1, p := { s.p with z := s.a == 0, n := s.a.getLsbD 7 } } ∧
      cycles .tax s = 2 ∧ Instr.opcode .tax = 0xAA) ∧
    (exec .tay s = .next { s with y := s.a, pc := s.pc + 1, p := { s.p with z := s.a == 0, n := s.a.getLsbD 7 } } ∧
      cycles .tay s = 2 ∧ Instr.opcode .tay = 0xA8) ∧
    (exec .txa s = .next { s with a := s.x, pc := s.pc + 1, p := { s.p with z := s.x == 0, n := s.x.getLsbD 7 } } ∧
      cycles .txa s = 2 ∧ Instr.opcode .txa = 0x8A) ∧
    (exec .tya s = .next { s with a := s.y, pc := s.pc + 1, p := { s.p with z := s.y == 0, n := s.y.getLsbD 7 } } ∧
      cycles .tya s = 2 ∧ Instr.opcode .tya = 0x98) ∧
    (exec .tsx s = .next { s with x := s.sp, pc := s.pc + 1, p := { s.p with z := s.sp == 0, n := s.sp.getLsbD 7 } } ∧
      cycles .tsx s = 2 ∧ Instr.opcode .tsx = 0xBA) ∧
    (exec .txs s = .next { s with sp := s.x, pc := s.pc + 1 } ∧
      cycles .txs s = 2 ∧ Instr.opcode .txs = 0x9A)

/-- For all bytes a, m and carry-in: the result is (a + m + cin) mod 256, C exactly when the sum exceeds 0xFF, V
exactly when the signed sum lies outside -128..127 and given by the bit formula of R141, N bit 7 of the result,
Z exactly when it is 0. (R141, R142) -/
def Obligations.BinaryAdditionIsExact : Prop :=
  ∀ (a m : Byte) (cin : Bool), ∃ o, addBinary a m cin = o ∧
    o.r.toNat = (a.toNat + m.toNat + cin.toNat) % 256 ∧
    (o.c = true ↔ a.toNat + m.toNat + cin.toNat > 0xFF) ∧
    (o.v = true ↔ (~~~(a ^^^ m) &&& (a ^^^ o.r)) &&& 0x80 ≠ 0) ∧
    (o.v = true ↔ a.toInt + m.toInt + cin.toNat < -128 ∨ a.toInt + m.toInt + cin.toNat > 127) ∧
    (o.n = true ↔ o.r.toNat ≥ 128) ∧ (o.z = true ↔ o.r = 0)

/-- For all bytes a, m and carry-in: SubBinary is AddBinary of the complement; the result is (a - m - (1 - cin)) mod
256, C exactly when a >= m + (1 - cin), V exactly when the signed difference lies outside -128..127; subtracting
b with carry set from the binary sum of a and b gives a. (R143) -/
def Obligations.BinarySubtractionIsExact : Prop :=
  (∀ (a m : Byte) (cin : Bool), ∃ o, subBinary a m cin = o ∧ o = addBinary a (~~~m) cin ∧
    (o.r.toNat : Int) = ((a.toNat : Int) - m.toNat - (1 - cin.toNat)) % 256 ∧
    (o.c = true ↔ (a.toNat : Int) ≥ m.toNat + (1 - cin.toNat)) ∧
    (o.v = true ↔ a.toInt - m.toInt - (1 - cin.toNat) < -128 ∨ a.toInt - m.toInt - (1 - cin.toNat) > 127)) ∧
  (∀ a b : Byte, (subBinary (addBinary a b false).r b true).r = a)

/-- For every ADC in every mode and every state, exec answers the state with A, N, V, Z, C from AddBinary(A,
operand, C) when D is 0 and from DecimalArith(add, A, operand, C) when D is 1, PC past the instruction and
everything else as before, with the cycles and opcode bytes of the rule. Where DecimalArith is open (R146, log
entry 3) its value is free and the instruction still completes. (R150) -/
def Obligations.AdcWritesTheSum : Prop :=
  ∀ (i : Instr) (s : State), i.operation = .adc → ∃ src, i.operand = .source src ∧
    (∃ o, o = (if s.p.d then decimalArith .add s.a (sourceValue src s) s.p.c
          else addBinary s.a (sourceValue src s) s.p.c) ∧
      exec i s = .next
        { s with a := o.r, p := { s.p with n := o.n, v := o.v, z := o.z, c := o.c },
                 pc := s.pc + BitVec.ofNat 16 i.length }) ∧
    cycles i s = readCycles src s ∧
    HasCell i [(.immediate, 0x69), (.zeroPage, 0x65), (.zeroPageX, 0x75), (.absolute, 0x6D),
          (.absoluteX, 0x7D), (.absoluteY, 0x79), (.indirectX, 0x61), (.indirectY, 0x71)]

/-- For every SBC in every mode and every state, exec answers the state with A, N, V, Z, C from SubBinary(A,
operand, C) when D is 0 and from DecimalArith(sub, A, operand, C) when D is 1, PC past the instruction and
everything else as before, with the cycles and opcode bytes of the rule. Where DecimalArith is open (R146, log
entry 3) its value is free and the instruction still completes. (R151) -/
def Obligations.SbcWritesTheDifference : Prop :=
  ∀ (i : Instr) (s : State), i.operation = .sbc → ∃ src, i.operand = .source src ∧
    (∃ o, o = (if s.p.d then decimalArith .sub s.a (sourceValue src s) s.p.c
          else subBinary s.a (sourceValue src s) s.p.c) ∧
      exec i s = .next
        { s with a := o.r, p := { s.p with n := o.n, v := o.v, z := o.z, c := o.c },
                 pc := s.pc + BitVec.ofNat 16 i.length }) ∧
    cycles i s = readCycles src s ∧
    HasCell i [(.immediate, 0xE9), (.zeroPage, 0xE5), (.zeroPageX, 0xF5), (.absolute, 0xED),
          (.absoluteX, 0xFD), (.absoluteY, 0xF9), (.indirectX, 0xE1), (.indirectY, 0xF1)]

/-- For every ADC or SBC in every mode and every state with D = 1 whose A and operand byte are valid BCD: exec
answers a state whose A is a valid BCD byte, of value (A + operand + C) mod 100 for ADC and (A - operand - (1 -
C)) mod 100 for SBC, and whose C is set exactly when the sum exceeds 99, respectively when the difference is not
negative. It holds whatever the free part of DecimalArith is. (R145) -/
def Obligations.DecimalResultOnValidDigits : Prop :=
  ∀ (i : Instr) (src : Source) (s : State), i.operand = .source src → s.p.d = true →
    validBcd s.a = true → validBcd (sourceValue src s) = true →
    (i.operation = .adc → ∃ t, exec i s = .next t ∧ validBcd t.a = true ∧
      decOfBcd t.a = (decOfBcd s.a + decOfBcd (sourceValue src s) + s.p.c.toNat) % 100 ∧
      (t.p.c = true ↔ decOfBcd s.a + decOfBcd (sourceValue src s) + s.p.c.toNat > 99)) ∧
    (i.operation = .sbc → ∃ t, exec i s = .next t ∧ validBcd t.a = true ∧
      (decOfBcd t.a : Int) =
        ((decOfBcd s.a : Int) - decOfBcd (sourceValue src s) - (1 - s.p.c.toNat)) % 100 ∧
      (t.p.c = true ↔ (decOfBcd s.a : Int) - decOfBcd (sourceValue src s) - (1 - s.p.c.toNat) ≥ 0))

/-- For add and sub, all valid BCD bytes a, m and both carry-ins: the result and carry of DecimalArithDefault,
computed by nibble-wise correction, are those R145 fixes by decimal arithmetic. The machine does not use the
default instance. (42_alu_flags_arith_logic.md section 1 (R146)) -/
def Obligations.DecimalDefaultMeetsTheFixedPart : Prop :=
  ∀ (op : DecimalOp) (a m : Byte) (cin : Bool), validBcd a = true → validBcd m = true →
    (decimalDefault op a m cin).r = (decimalFixed op a m cin).1 ∧
    (decimalDefault op a m cin).c = (decimalFixed op a m cin).2

/-- For every AND, ORA or EOR in every mode and every state, exec answers the state with A the bitwise and, or,
exclusive or of A and the operand, Z and N from the new A, PC past the instruction and everything else as
before; cycles and opcode bytes as the rules list. (R152, R153, R154) -/
def Obligations.LogicWritesA : Prop :=
  ∀ (i : Instr) (s : State),
    (i.operation = .and → ∃ src, i.operand = .source src ∧
      (∃ r, r = s.a &&& sourceValue src s ∧
        exec i s = .next { s with a := r, p := { s.p with z := r == 0, n := r.getLsbD 7 }, pc := s.pc + BitVec.ofNat 16 i.length }) ∧
      cycles i s = readCycles src s ∧
      HasCell i [(.immediate, 0x29), (.zeroPage, 0x25), (.zeroPageX, 0x35), (.absolute, 0x2D),
          (.absoluteX, 0x3D), (.absoluteY, 0x39), (.indirectX, 0x21), (.indirectY, 0x31)]) ∧
    (i.operation = .ora → ∃ src, i.operand = .source src ∧
      (∃ r, r = s.a ||| sourceValue src s ∧
        exec i s = .next { s with a := r, p := { s.p with z := r == 0, n := r.getLsbD 7 }, pc := s.pc + BitVec.ofNat 16 i.length }) ∧
      cycles i s = readCycles src s ∧
      HasCell i [(.immediate, 0x09), (.zeroPage, 0x05), (.zeroPageX, 0x15), (.absolute, 0x0D),
          (.absoluteX, 0x1D), (.absoluteY, 0x19), (.indirectX, 0x01), (.indirectY, 0x11)]) ∧
    (i.operation = .eor → ∃ src, i.operand = .source src ∧
      (∃ r, r = s.a ^^^ sourceValue src s ∧
        exec i s = .next { s with a := r, p := { s.p with z := r == 0, n := r.getLsbD 7 }, pc := s.pc + BitVec.ofNat 16 i.length }) ∧
      cycles i s = readCycles src s ∧
      HasCell i [(.immediate, 0x49), (.zeroPage, 0x45), (.zeroPageX, 0x55), (.absolute, 0x4D),
          (.absoluteX, 0x5D), (.absoluteY, 0x59), (.indirectX, 0x41), (.indirectY, 0x51)])

/-- For every CMP, CPX or CPY in every mode and every state, exec answers the state with C exactly when register >=
operand unsigned, Z exactly when they are equal, N bit 7 of the difference mod 256, PC past the instruction and
everything else as before; cycles and opcode bytes as the rules list. (R147, R155, R156, R157) -/
def Obligations.ComparesSetTheFlagsOnly : Prop :=
  ∀ (i : Instr) (s : State),
    (i.operation = .cmp → ∃ src, i.operand = .source src ∧
      (∃ m, m = sourceValue src s ∧
        exec i s = .next
          { s with p := { s.p with c := decide (m.toNat ≤ s.a.toNat), z := decide (s.a = m),
                                   n := decide (128 ≤ (256 + s.a.toNat - m.toNat) % 256) },
                   pc := s.pc + BitVec.ofNat 16 i.length }) ∧
      cycles i s = readCycles src s ∧
      HasCell i [(.immediate, 0xC9), (.zeroPage, 0xC5), (.zeroPageX, 0xD5), (.absolute, 0xCD),
          (.absoluteX, 0xDD), (.absoluteY, 0xD9), (.indirectX, 0xC1), (.indirectY, 0xD1)]) ∧
    (i.operation = .cpx → ∃ src, i.operand = .source src ∧
      (∃ m, m = sourceValue src s ∧
        exec i s = .next
          { s with p := { s.p with c := decide (m.toNat ≤ s.x.toNat), z := decide (s.x = m),
                                   n := decide (128 ≤ (256 + s.x.toNat - m.toNat) % 256) },
                   pc := s.pc + BitVec.ofNat 16 i.length }) ∧
      cycles i s = readCycles src s ∧
      HasCell i [(.immediate, 0xE0), (.zeroPage, 0xE4), (.absolute, 0xEC)]) ∧
    (i.operation = .cpy → ∃ src, i.operand = .source src ∧
      (∃ m, m = sourceValue src s ∧
        exec i s = .next
          { s with p := { s.p with c := decide (m.toNat ≤ s.y.toNat), z := decide (s.y = m),
                                   n := decide (128 ≤ (256 + s.y.toNat - m.toNat) % 256) },
                   pc := s.pc + BitVec.ofNat 16 i.length }) ∧
      cycles i s = readCycles src s ∧
      HasCell i [(.immediate, 0xC0), (.zeroPage, 0xC4), (.absolute, 0xCC)])

/-- For every BIT and every state, exec answers the state with Z exactly when A and the operand have no common bit,
N bit 7 and V bit 6 of the operand, PC past the instruction and everything else as before; 3 or 4 cycles and
opcodes 24, 2C. (R158) -/
def Obligations.BitTestsWithoutTouchingA : Prop :=
  ∀ (i : Instr) (s : State),
    (i.operation = .bit → ∃ src, i.operand = .source src ∧
      (∃ m, m = sourceValue src s ∧
        exec i s = .next
          { s with p := { s.p with z := s.a &&& m == 0, n := m.getLsbD 7, v := m.getLsbD 6 }, pc := s.pc + BitVec.ofNat 16 i.length }) ∧
      cycles i s = readCycles src s ∧
      HasCell i [(.zeroPage, 0x24), (.absolute, 0x2C)])

/-- Every INC and DEC has a memory operand, and in every state exec answers the state with the byte at the effective
address replaced by itself plus 1, respectively minus 1, mod 256, Z and N from the new byte, PC past the
instruction and everything else as before; 5, 6, 6, 7 cycles and the opcode bytes of the rules. (R191, R192) -/
def Obligations.IncAndDecModifyTheirByte : Prop :=
  ∀ (i : Instr) (s : State),
    (i.operation ∈ [.inc, .dec] → ∃ m, i.operand = .source (.mem m)) ∧
    (i.operation = .inc → ∀ m, i.operand = .source (.mem m) →
      (∃ v r, v = s.read (effAddr m s) ∧ r = v + 1 ∧
        exec i s = .next
          { s.write (effAddr m s) r with p := { s.p with z := r == 0, n := r.getLsbD 7 }, pc := s.pc + BitVec.ofNat 16 i.length }) ∧
      cycles i s = modifyCycles m ∧
      HasCell i [(.zeroPage, 0xE6), (.zeroPageX, 0xF6), (.absolute, 0xEE), (.absoluteX, 0xFE)]) ∧
    (i.operation = .dec → ∀ m, i.operand = .source (.mem m) →
      (∃ v r, v = s.read (effAddr m s) ∧ r = v - 1 ∧
        exec i s = .next
          { s.write (effAddr m s) r with p := { s.p with z := r == 0, n := r.getLsbD 7 }, pc := s.pc + BitVec.ofNat 16 i.length }) ∧
      cycles i s = modifyCycles m ∧
      HasCell i [(.zeroPage, 0xC6), (.zeroPageX, 0xD6), (.absolute, 0xCE), (.absoluteX, 0xDE)])

/-- In every state INX, INY, DEX, DEY answer the state with the register one more or less mod 256, Z and N from the
new value, PC moved by 1 and everything else as before; 2 cycles; opcodes E8, C8, CA, 88. (R193, R194, R195,
R196) -/
def Obligations.RegisterIncrementsWrap : Prop :=
  ∀ s : State,
    (exec .inx s = .next
        { s with x := s.x + 1, pc := s.pc + 1,
                 p := { s.p with z := s.x + 1 == 0, n := (s.x + 1).getLsbD 7 } } ∧
      cycles .inx s = 2 ∧ Instr.opcode .inx = 0xE8) ∧
    (exec .iny s = .next
        { s with y := s.y + 1, pc := s.pc + 1,
                 p := { s.p with z := s.y + 1 == 0, n := (s.y + 1).getLsbD 7 } } ∧
      cycles .iny s = 2 ∧ Instr.opcode .iny = 0xC8) ∧
    (exec .dex s = .next
        { s with x := s.x - 1, pc := s.pc + 1,
                 p := { s.p with z := s.x - 1 == 0, n := (s.x - 1).getLsbD 7 } } ∧
      cycles .dex s = 2 ∧ Instr.opcode .dex = 0xCA) ∧
    (exec .dey s = .next
        { s with y := s.y - 1, pc := s.pc + 1,
                 p := { s.p with z := s.y - 1 == 0, n := (s.y - 1).getLsbD 7 } } ∧
      cycles .dey s = 2 ∧ Instr.opcode .dey = 0x88)

/-- In every state the accumulator forms answer the state with A set to 2A mod 256 (ASL), A div 2 (LSR), (2A + C)
mod 256 (ROL), A div 2 + 128 C (ROR), C the bit shifted out (bit 7 to the left, bit 0 to the right), Z and N
from the new A, PC moved by 1, everything else as before; 2 cycles. (44_inc_dec_shift_rotate.md section 3 (R197,
R198, R199, R200), their accumulator forms, 41_addressing_modes.md section 2 (R124)) -/
def Obligations.AccumulatorShiftsMoveOneBit : Prop :=
  ∀ s : State,
    ((∃ r, r = BitVec.ofNat 8 (2 * s.a.toNat) ∧ exec .aslAcc s = .next
        { s with a := r, pc := s.pc + 1, p := { s.p with c := decide (128 ≤ s.a.toNat), z := r == 0, n := r.getLsbD 7 } }) ∧
      cycles .aslAcc s = 2 ∧ Instr.opcode .aslAcc = 0x0A) ∧
    ((∃ r, r = BitVec.ofNat 8 (s.a.toNat / 2) ∧ exec .lsrAcc s = .next
        { s with a := r, pc := s.pc + 1, p := { s.p with c := decide (s.a.toNat % 2 = 1), z := r == 0, n := r.getLsbD 7 } }) ∧
      cycles .lsrAcc s = 2 ∧ Instr.opcode .lsrAcc = 0x4A) ∧
    ((∃ r, r = BitVec.ofNat 8 (2 * s.a.toNat + s.p.c.toNat) ∧ exec .rolAcc s = .next
        { s with a := r, pc := s.pc + 1, p := { s.p with c := decide (128 ≤ s.a.toNat), z := r == 0, n := r.getLsbD 7 } }) ∧
      cycles .rolAcc s = 2 ∧ Instr.opcode .rolAcc = 0x2A) ∧
    ((∃ r, r = BitVec.ofNat 8 (s.a.toNat / 2 + 128 * s.p.c.toNat) ∧ exec .rorAcc s = .next
        { s with a := r, pc := s.pc + 1, p := { s.p with c := decide (s.a.toNat % 2 = 1), z := r == 0, n := r.getLsbD 7 } }) ∧
      cycles .rorAcc s = 2 ∧ Instr.opcode .rorAcc = 0x6A)

/-- For every shift or rotate with a memory operand, in every state, exec answers the state with the byte at the
effective address replaced by its one-bit shift (ASL 2v mod 256, LSR v div 2, ROL 2v + C mod 256, ROR v div 2 +
128 C), C the bit shifted out, Z and N from the new byte, PC past the instruction and everything else as before;
5, 6, 6, 7 cycles and the opcode bytes of the rules. Each has a memory operand or is an accumulator form.
(44_inc_dec_shift_rotate.md sections 1 and 3 (R190, R197, R198, R199, R200), their memory forms) -/
def Obligations.MemoryShiftsMoveOneBit : Prop :=
  ∀ (i : Instr) (s : State),
    (i.operation ∈ [.asl, .lsr, .rol, .ror] → i.operand = .accumulator ∨ ∃ m, i.operand = .source (.mem m)) ∧
    (i.operation = .asl → ∀ m, i.operand = .source (.mem m) →
      (∃ v r, v = s.read (effAddr m s) ∧ r = BitVec.ofNat 8 (2 * v.toNat) ∧
        exec i s = .next
          { s.write (effAddr m s) r with p := { s.p with c := decide (128 ≤ v.toNat), z := r == 0, n := r.getLsbD 7 }, pc := s.pc + BitVec.ofNat 16 i.length }) ∧
      cycles i s = modifyCycles m ∧
      HasCell i [(.accumulator, 0x0A), (.zeroPage, 0x06), (.zeroPageX, 0x16), (.absolute, 0x0E),
          (.absoluteX, 0x1E)]) ∧
    (i.operation = .lsr → ∀ m, i.operand = .source (.mem m) →
      (∃ v r, v = s.read (effAddr m s) ∧ r = BitVec.ofNat 8 (v.toNat / 2) ∧
        exec i s = .next
          { s.write (effAddr m s) r with p := { s.p with c := decide (v.toNat % 2 = 1), z := r == 0, n := r.getLsbD 7 }, pc := s.pc + BitVec.ofNat 16 i.length }) ∧
      cycles i s = modifyCycles m ∧
      HasCell i [(.accumulator, 0x4A), (.zeroPage, 0x46), (.zeroPageX, 0x56), (.absolute, 0x4E),
          (.absoluteX, 0x5E)]) ∧
    (i.operation = .rol → ∀ m, i.operand = .source (.mem m) →
      (∃ v r, v = s.read (effAddr m s) ∧ r = BitVec.ofNat 8 (2 * v.toNat + s.p.c.toNat) ∧
        exec i s = .next
          { s.write (effAddr m s) r with p := { s.p with c := decide (128 ≤ v.toNat), z := r == 0, n := r.getLsbD 7 }, pc := s.pc + BitVec.ofNat 16 i.length }) ∧
      cycles i s = modifyCycles m ∧
      HasCell i [(.accumulator, 0x2A), (.zeroPage, 0x26), (.zeroPageX, 0x36), (.absolute, 0x2E),
          (.absoluteX, 0x3E)]) ∧
    (i.operation = .ror → ∀ m, i.operand = .source (.mem m) →
      (∃ v r, v = s.read (effAddr m s) ∧ r = BitVec.ofNat 8 (v.toNat / 2 + 128 * s.p.c.toNat) ∧
        exec i s = .next
          { s.write (effAddr m s) r with p := { s.p with c := decide (v.toNat % 2 = 1), z := r == 0, n := r.getLsbD 7 }, pc := s.pc + BitVec.ofNat 16 i.length }) ∧
      cycles i s = modifyCycles m ∧
      HasCell i [(.accumulator, 0x6A), (.zeroPage, 0x66), (.zeroPageX, 0x76), (.absolute, 0x6E),
          (.absoluteX, 0x7E)])

/-- In every state JMP abs answers the state with PC the operand word, 3 cycles; JMP (ind) with PC the byte at the
pointer plus 256 times the byte at the address with the pointer's high byte and its low byte plus 1 mod 256, 5
cycles; which is the ordinary 16-bit read when the low byte is not 0xFF. No register, flag or byte of memory
changes. (R210, R133) -/
def Obligations.JumpsLoadPcAlone : Prop :=
  (∀ (w : Addr) (s : State), exec (.jmpAbs w) s = .next { s with pc := w } ∧
    cycles (.jmpAbs w) s = 3 ∧ Instr.opcode (.jmpAbs w) = 0x4C) ∧
  (∀ (ptr : Addr) (s : State), ∃ target : Addr,
    exec (.jmpInd ptr) s = .next { s with pc := target } ∧
    target.toNat = (s.read ptr).toNat +
      256 * (s.read (BitVec.ofNat 16 (ptr.toNat / 256 * 256 + (ptr.toNat + 1) % 256))).toNat ∧
    (ptr.toNat % 256 ≠ 0xFF → target = s.read16 ptr) ∧
    cycles (.jmpInd ptr) s = 5 ∧ Instr.opcode (.jmpInd ptr) = 0x6C)

/-- For every target and state, JSR answers the state with hi8(a + 2) written at 0x0100 + S, then lo8(a + 2) at
0x0100 + ((S - 1) mod 256), S less 2 mod 256, PC the target, and every other register, flag and byte as before;
6 cycles, opcode 20. (R212) -/
def Obligations.JsrStacksItsLastByte : Prop :=
  ∀ (w : Addr) (s : State),
    exec (.jsr w) s = .next
      { (s.write (0x0100 + s.sp.zeroExtend 16) (hi8 (s.pc + 2))).write (0x0100 + (s.sp - 1).zeroExtend 16) (lo8 (s.pc + 2)) with
        sp := s.sp - 2, pc := w } ∧
    cycles (.jsr w) s = 6 ∧ Instr.opcode (.jsr w) = 0x20

/-- In every state RTS answers the state with PC the popped word plus 1 mod 65536 (low byte from 0x0100 + ((S + 1)
mod 256), high byte from 0x0100 + ((S + 2) mod 256)), S plus 2 mod 256, and everything else as before; 6 cycles,
opcode 60. (R213) -/
def Obligations.RtsReturnsPastThePoppedAddress : Prop :=
  ∀ s : State, ∃ target : Addr,
    exec .rts s = .next { s with sp := s.sp + 2, pc := target } ∧
    target.toNat = ((s.read (0x0100 + (s.sp + 1).zeroExtend 16)).toNat +
      256 * (s.read (0x0100 + (s.sp + 2).zeroExtend 16)).toNat + 1) % 65536 ∧
    cycles .rts s = 6 ∧ Instr.opcode .rts = 0x60

/-- For every offset and state, each branch answers the state with PC (a + 2 + offset) mod 65536 when its flag has
the value the rule names (C clear, C set, Z set, Z clear, N set, N clear, V clear, V set), else (a + 2) mod
65536, everything else as before; 2 cycles not taken, 3 taken within the page of a + 2, 4 taken to another page.
(R214, R215, R216, R217, R218, R219, R220, R221, R222) -/
def Obligations.BranchesTestOneFlag : Prop :=
  ∀ (off : Byte) (s : State),
    let next := s.pc + 2
    let target := BitVec.ofInt 16 ((s.pc + 2).toNat + off.toInt)
    let rule := fun (i : Instr) (cond : Bool) (op : Byte) =>
      exec i s = .next { s with pc := if cond then target else next } ∧
      cycles i s = (if cond then (if hi8 target = hi8 next then 3 else 4) else 2) ∧ i.opcode = op
    rule (.bcc off) (!s.p.c) 0x90 ∧ rule (.bcs off) (s.p.c) 0xB0 ∧ rule (.beq off) (s.p.z) 0xF0 ∧
    rule (.bne off) (!s.p.z) 0xD0 ∧ rule (.bmi off) (s.p.n) 0x30 ∧ rule (.bpl off) (!s.p.n) 0x10 ∧
    rule (.bvc off) (!s.p.v) 0x50 ∧ rule (.bvs off) (s.p.v) 0x70

/-- In every state PHA answers the state with A written at 0x0100 + S, PHP with the status byte or 0x30 written
there; S less 1 mod 256, PC moved by 1, every register, every live flag and every other byte as before; 3
cycles; opcodes 48, 08. (R230, R231) -/
def Obligations.PushesWriteTheSlotAtS : Prop :=
  ∀ s : State,
    (exec .pha s = .next { s.write (0x0100 + s.sp.zeroExtend 16) s.a with sp := s.sp - 1, pc := s.pc + 1 } ∧
      cycles .pha s = 3 ∧ Instr.opcode .pha = 0x48) ∧
    (exec .php s = .next { s.write (0x0100 + s.sp.zeroExtend 16) (s.p.toByte ||| 0x30) with sp := s.sp - 1, pc := s.pc + 1 } ∧
      cycles .php s = 3 ∧ Instr.opcode .php = 0x08)

/-- In every state, with v the byte at 0x0100 + ((S + 1) mod 256): PLA answers the state with A = v and Z, N from v;
PLP with N, V, D, I, Z, C bits 7, 6, 3, 2, 1, 0 of v and B, U as they were; S plus 1 mod 256, PC moved by 1,
everything else as before; 4 cycles; opcodes 68, 28. (R232, R233) -/
def Obligations.PullsReadTheSlotAboveS : Prop :=
  ∀ s : State, ∃ v, v = s.read (0x0100 + (s.sp + 1).zeroExtend 16) ∧
    (exec .pla s = .next { s with a := v, sp := s.sp + 1, pc := s.pc + 1, p := { s.p with z := v == 0, n := v.getLsbD 7 } } ∧
      cycles .pla s = 4 ∧ Instr.opcode .pla = 0x68) ∧
    (exec .plp s = .next
        { s with sp := s.sp + 1, pc := s.pc + 1,
                 p := { s.p with n := v.getLsbD 7, v := v.getLsbD 6, d := v.getLsbD 3, i := v.getLsbD 2,
                                 z := v.getLsbD 1, c := v.getLsbD 0 } } ∧
      cycles .plp s = 4 ∧ Instr.opcode .plp = 0x28)

/-- In every state each flag instruction answers the state with its flag cleared or set and PC moved by 1, NOP the
state with PC moved by 1; everything else as before; 2 cycles each; opcodes 18, 38, 58, 78, D8, F8, B8, EA.
(R234, R235, R236, R237, R238, R239, R240, R241) -/
def Obligations.FlagInstructionsWriteOneFlag : Prop :=
  ∀ s : State,
    (exec .clc s = .next { s with pc := s.pc + 1, p := { s.p with c := false } } ∧
      cycles .clc s = 2 ∧ Instr.opcode .clc = 0x18) ∧
    (exec .sec s = .next { s with pc := s.pc + 1, p := { s.p with c := true } } ∧
      cycles .sec s = 2 ∧ Instr.opcode .sec = 0x38) ∧
    (exec .cli s = .next { s with pc := s.pc + 1, p := { s.p with i := false } } ∧
      cycles .cli s = 2 ∧ Instr.opcode .cli = 0x58) ∧
    (exec .sei s = .next { s with pc := s.pc + 1, p := { s.p with i := true } } ∧
      cycles .sei s = 2 ∧ Instr.opcode .sei = 0x78) ∧
    (exec .cld s = .next { s with pc := s.pc + 1, p := { s.p with d := false } } ∧
      cycles .cld s = 2 ∧ Instr.opcode .cld = 0xD8) ∧
    (exec .sed s = .next { s with pc := s.pc + 1, p := { s.p with d := true } } ∧
      cycles .sed s = 2 ∧ Instr.opcode .sed = 0xF8) ∧
    (exec .clv s = .next { s with pc := s.pc + 1, p := { s.p with v := false } } ∧
      cycles .clv s = 2 ∧ Instr.opcode .clv = 0xB8) ∧
    (exec .nop s = .next { s with pc := s.pc + 1 } ∧
      cycles .nop s = 2 ∧ Instr.opcode .nop = 0xEA)

/-- In every state BRK answers the state with hi8(a + 2) at 0x0100 + S, lo8(a + 2) at 0x0100 + (S - 1) mod 256, the
old status byte or 0x30 at 0x0100 + (S - 2) mod 256, S less 3 mod 256, I set and no other flag changed, PC the
word at 0xFFFE and 0xFFFF after the pushes, which is the word there before them; A, X, Y and every other byte as
before; 7 cycles, opcode 00. It is taken whatever I is, and the byte after the opcode plays no part. (R242,
R265) -/
def Obligations.BreakTakesTheTrap : Prop :=
  ∀ s : State, ∃ s1 : State,
    s1 = ((s.write (0x0100 + s.sp.zeroExtend 16) (hi8 (s.pc + 2))).write (0x0100 + (s.sp - 1).zeroExtend 16) (lo8 (s.pc + 2))).write
      (0x0100 + (s.sp - 2).zeroExtend 16) (s.p.toByte ||| 0x30) ∧
    exec .brk s = .next
      { s1 with sp := s.sp - 3, p := { s.p with i := true },
                pc := joinBytes (s1.read 0xFFFF) (s1.read 0xFFFE) } ∧
    s1.read 0xFFFE = s.read 0xFFFE ∧ s1.read 0xFFFF = s.read 0xFFFF ∧
    cycles .brk s = 7 ∧ Instr.opcode .brk = 0x00

/-- In every state RTI answers the state with N, V, D, I, Z, C bits 7, 6, 3, 2, 1, 0 of the byte at 0x0100 + (S + 1)
mod 256, B and U as they were, PC the word whose low byte is at S + 2 and high byte at S + 3 with no adjustment,
S plus 3 mod 256, A, X, Y and memory as before; 6 cycles, opcode 40. (R243, R267) -/
def Obligations.ReturnFromInterruptRestores : Prop :=
  ∀ s : State, ∃ v : Byte, v = s.read (0x0100 + (s.sp + 1).zeroExtend 16) ∧
    exec .rti s = .next
      { s with sp := s.sp + 3,
               pc := joinBytes (s.read (0x0100 + (s.sp + 3).zeroExtend 16)) (s.read (0x0100 + (s.sp + 2).zeroExtend 16)),
               p := { s.p with n := v.getLsbD 7, v := v.getLsbD 6, d := v.getLsbD 3, i := v.getLsbD 2,
                                z := v.getLsbD 1, c := v.getLsbD 0 } } ∧
    cycles .rti s = 6 ∧ Instr.opcode .rti = 0x40

/-- From every state, BRK followed by RTI leaves PC = a + 2, S, A, X, Y and all eight flags as before the BRK (I
included), the three stack bytes as BRK wrote them and every other byte as before; between the two I is set; 13
cycles in all. (R244) -/
def Obligations.BreakThenReturnRestoresTheState : Prop :=
  ∀ s : State, ∃ t u : State, exec .brk s = .next t ∧ exec .rti t = .next u ∧
    t.p.i = true ∧ u.pc = s.pc + 2 ∧ u.sp = s.sp ∧ u.p = s.p ∧ u.a = s.a ∧ u.x = s.x ∧ u.y = s.y ∧
    u.read (0x0100 + s.sp.zeroExtend 16) = hi8 (s.pc + 2) ∧ u.read (0x0100 + (s.sp - 1).zeroExtend 16) = lo8 (s.pc + 2) ∧
    u.read (0x0100 + (s.sp - 2).zeroExtend 16) = s.p.toByte ||| 0x30 ∧
    (∀ addr, addr ∉ [(0x0100 + s.sp.zeroExtend 16), (0x0100 + (s.sp - 1).zeroExtend 16),
        (0x0100 + (s.sp - 2).zeroExtend 16)] → u.read addr = s.read addr) ∧
    cycles .brk s + cycles .rti t = 13

/-- From every state, JSR to any target followed by RTS leaves PC = a + 3, S, A, X, Y and every flag as before, and
every byte outside the two stack slots as before; 12 cycles. (45_control_flow.md section 3 (R212, R213),
95_test_vectors.md T9) -/
def Obligations.CallThenReturnRestoresTheStack : Prop :=
  ∀ (w : Addr) (s : State), ∃ t u : State, exec (.jsr w) s = .next t ∧ exec .rts t = .next u ∧
    t.pc = w ∧ u.pc = s.pc + 3 ∧ u.sp = s.sp ∧ u.p = s.p ∧ u.a = s.a ∧ u.x = s.x ∧ u.y = s.y ∧
    (∀ addr, addr ∉ [(0x0100 + s.sp.zeroExtend 16), (0x0100 + (s.sp - 1).zeroExtend 16)] →
      u.read addr = s.read addr) ∧
    cycles (.jsr w) s + cycles .rts t = 12

/-- From every state: PHP then PLP leaves A, X, Y, S and all flags as they were and every byte but the slot at S;
PHP then PLA leaves A = P or 0x30; PHA then PLP leaves N, V, D, I, Z, C bits 7, 6, 3, 2, 1, 0 of A and B, U as
they were. (R245) -/
def Obligations.PushAndPullPairs : Prop :=
  ∀ s : State,
    (∃ t u : State, exec .php s = .next t ∧ exec .plp t = .next u ∧
      u.p = s.p ∧ u.sp = s.sp ∧ u.a = s.a ∧ u.x = s.x ∧ u.y = s.y ∧
      u.read (0x0100 + s.sp.zeroExtend 16) = s.p.toByte ||| 0x30 ∧
      (∀ addr, addr ≠ (0x0100 + s.sp.zeroExtend 16) → u.read addr = s.read addr)) ∧
    (∃ t u : State, exec .php s = .next t ∧ exec .pla t = .next u ∧ u.a = s.p.toByte ||| 0x30) ∧
    (∃ t u : State, exec .pha s = .next t ∧ exec .plp t = .next u ∧
      u.p = { s.p with n := s.a.getLsbD 7, v := s.a.getLsbD 6, d := s.a.getLsbD 3, i := s.a.getLsbD 2,
                       z := s.a.getLsbD 1, c := s.a.getLsbD 0 })

/-- For every state and word: Push16 leaves hi8(w) readable at 0x0100 + S and lo8(w) at 0x0100 + ((S - 1) mod 256),
every other byte as before and S less 2 mod 256; Pop16 after it returns w and gives S back, for every S, also
where the pair is split across the ends of the page. (R60, R61) -/
def Obligations.PopOfPushReturnsTheWord : Prop :=
  ∀ (s : State) (w : Addr),
    (s.push16 w).read (0x0100 + s.sp.zeroExtend 16) = hi8 w ∧ (s.push16 w).read (0x0100 + (s.sp - 1).zeroExtend 16) = lo8 w ∧
    (∀ addr, addr ∉ [(0x0100 + s.sp.zeroExtend 16), (0x0100 + (s.sp - 1).zeroExtend 16)] →
      (s.push16 w).read addr = s.read addr) ∧
    (s.push16 w).sp = s.sp - 2 ∧
    (s.push16 w).pop16.1 = w ∧ (s.push16 w).pop16.2.sp = s.sp

/-- For every budget b > 0 and state: if Execute(b) answers Ok(t), then b <= t <= b + 6. The lower bound also says
that the loop is never cut short. (R105) -/
def Obligations.ExecuteOverrunsByAtMostSix : Prop :=
  ∀ (b : BitVec 64) (s : State) (used : Int) (s' : State),
    execute b s = .ok used s' → b.toInt > 0 → b.toInt ≤ used ∧ used ≤ b.toInt + 6

/-- For every state: a budget at or below 0 answers Ok(0) with the state unchanged, also at an undefined opcode; a
budget above 2^63 - 8 is refused with no result; a budget between is never refused. (R106, R110) -/
def Obligations.ExecuteOutsideItsRangeDoesNothing : Prop :=
  ∀ (b : BitVec 64) (s : State),
    (b.toInt ≤ 0 → execute b s = .ok 0 s) ∧
    (b.toInt > 2 ^ 63 - 8 → execute b s = .refused .budgetTooLarge) ∧
    (b.toInt ≤ 2 ^ 63 - 8 → ∀ r, execute b s ≠ .refused r)

/-- For every state: when the step answers t, Execute(1) and Execute(2) answer Ok of the step's cycles with the
state t; when the step is UndefinedOpcode, both answer that error with total 0 and the state unchanged. (R107) -/
def Obligations.ExecuteOneIsOneStep : Prop :=
  ∀ s : State,
    (∀ t, step s = .next t → execute 1 s = .ok (stepCycles s) t ∧ execute 2 s = .ok (stepCycles s) t) ∧
    (∀ addr byte, step s = .fault (.undefinedOpcode addr byte) →
      execute 1 s = .undefinedOpcode addr byte 0 s ∧ execute 2 s = .undefinedOpcode addr byte 0 s)

/-- For every budget and state: the state at return is reached from the start by whole steps, for Ok and for the
error; on the error the address is PC of that state and the byte the undefined byte there, and every further
Execute with a positive budget in range answers the same error with total 0 and the same state.
(40_execute_dispatch.md section 2 (R109, R111), 60_exceptions.md section 1 (R260, R263)) -/
def Obligations.ExecuteStopsAtABoundaryAndRepeatsTheError : Prop :=
  ∀ (b : BitVec 64) (s : State),
    (∀ used s', execute b s = .ok used s' → Reaches s s') ∧
    (∀ addr byte used s', execute b s = .undefinedOpcode addr byte used s' →
      Reaches s s' ∧ addr = s'.pc ∧ byte = s'.read s'.pc ∧ byte ∈ undefinedOpcodeBytes ∧
      ∀ b' : BitVec 64, b'.toInt > 0 → b'.toInt ≤ 2 ^ 63 - 8 →
        execute b' s' = .undefinedOpcode addr byte 0 s')

/-- For every instruction and state the cycle count is at least 2 and at most 7; for an instruction that is no
branch, the count does not depend on A, S or any flag; for a branch, it is the same for any two values of A, S
and the status on which the condition of the branch agrees. (40_execute_dispatch.md section 2 (R104),
41_addressing_modes.md (R122)) -/
def Obligations.CycleCountsLieBetweenTwoAndSeven : Prop :=
  (∀ (i : Instr) (s : State), 2 ≤ cycles i s ∧ cycles i s ≤ 7) ∧
  (∀ (i : Instr) (s : State) (a sp : Byte) (p : Status), (∀ off, i.operand ≠ .relative off) →
    cycles i { s with a := a, sp := sp, p := p } = cycles i s) ∧
  (∀ (i : Instr) (s : State) (a sp : Byte) (p : Status) (off : Byte), i.operand = .relative off →
    branchTaken i.operation p = branchTaken i.operation s.p →
    cycles i { s with a := a, sp := sp, p := p } = cycles i s)

/-- For every instruction i of all 151 and every state s, with next state t: every byte of t is the byte i stores
there (for STA, STX, STY, INC, DEC, the memory shifts and rotates, PHA, PHP, JSR and BRK), and for every other
address, or an instruction that stores nothing, the byte of s; the instruction fetched at t is decoded from
those bytes at PC, PC + 1 and PC + 2 of t, and the step of t runs it, or is UndefinedOpcode with the byte at PC.
In particular after STA w it is read at a + 3, a + 4 and a + 5 with the byte at w replaced by A. (20_memory.md
section 5 (R65, R68)) -/
def Obligations.StoresAreSeenByTheNextFetch : Prop :=
  (∀ (i : Instr) (s : State), ∃ t, exec i s = .next t ∧
    (∀ addr, t.read addr = byteAfter i s addr) ∧
    fetchInstr t = decodeBytes (byteAfter i s t.pc) (byteAfter i s (t.pc + 1)) (byteAfter i s (t.pc + 2)) ∧
    (∀ j, fetchInstr t = some j → step t = exec j t) ∧
    (fetchInstr t = none → step t = .fault (.undefinedOpcode t.pc (byteAfter i s t.pc)))) ∧
  (∀ (w : Addr) (s : State), ∃ t, exec (.staAbs w) s = .next t ∧
    fetchInstr t =
      (let byte := fun addr : Addr => if addr = w then s.a else s.read addr
       decodeBytes (byte (s.pc + 3)) (byte (s.pc + 4)) (byte (s.pc + 5))))

/-- For every state with PC = 0 whose bytes at 0x0000, 0xFFFE and 0xFFFF are 0: the step is a BRK of 7 cycles to a
state with PC = 0, the same three bytes 0, S less 3 and I set; so no UndefinedOpcode ever arises from it.
(70_reset_and_hazards.md section 2 (R295)) -/
def Obligations.ZeroMemoryLoopsThroughTheTrap : Prop :=
  ∀ s : State, s.pc = 0 → s.read 0x0000 = 0 → s.read 0xFFFE = 0 → s.read 0xFFFF = 0 →
    (∃ t, step s = .next t ∧ stepCycles s = 7 ∧ t.pc = 0 ∧ t.read 0x0000 = 0 ∧ t.read 0xFFFE = 0 ∧
      t.read 0xFFFF = 0 ∧ t.sp = s.sp - 3 ∧ t.p.i = true) ∧
    SafeRun s
end

