-- ==== Sys2Proof/Laws/Memory.lean ====
section
/-! SUPPORT. The laws of the memory: a read after a write, writes elsewhere, the canonical form, and that equal reads
of canonical memories are equal memories (20_memory.md R50, R57, R65). -/

namespace Sys2Proof.Machine

theorem Memory.readByte_nil (k : Nat) : Memory.readByte [] k = Config.unlistedByte := rfl

theorem Memory.readByte_cons (c : Host.Cell) (m : Memory) (k : Nat) :
    Memory.readByte (c :: m) k = if c.1 = k then c.2 else Memory.readByte m k := rfl

theorem Memory.readByte_unlist (m : Memory) (k j : Nat) :
    Memory.readByte (Memory.unlist m k) j = if j = k then Config.unlistedByte else Memory.readByte m j := by
  induction m with
  | nil => simp [Memory.unlist, Memory.readByte]
  | cons c m ih =>
    rw [Memory.unlist] at *
    by_cases hc : c.1 = k
    · rw [List.filter_cons_of_neg (by simpa using hc), ih, Memory.readByte_cons]
      split <;> simp_all
      omega
    · rw [List.filter_cons_of_pos (by simpa using hc), Memory.readByte_cons, ih, Memory.readByte_cons]
      split <;> simp_all

theorem Memory.readByte_enlist (m : Memory) (k j : Nat) (v : Byte) :
    Memory.readByte (Memory.enlist m k v) j = if j = k then v else Memory.readByte m j := by
  induction m with
  | nil => simp [Memory.enlist, Memory.readByte, eq_comm]
  | cons c m ih =>
    rw [Memory.enlist]
    split
    · simp [Memory.readByte_cons, eq_comm]
    · split
      · simp only [Memory.readByte_cons]
        split
        · simp_all
        · simp_all
          omega
      · simp only [Memory.readByte_cons, ih]
        split <;> simp_all
        omega

/-- A read after a write: the byte written at its address, every other byte as before. -/
theorem Memory.readByte_writeByte (m : Memory) (k j : Nat) (v : Byte) :
    Memory.readByte (Memory.writeByte m k v) j = if j = k then v else Memory.readByte m j := by
  rw [Memory.writeByte]
  split
  · next h => rw [Memory.readByte_unlist, h]
  · exact Memory.readByte_enlist m k j v

theorem Memory.wfFrom_mono {lo lo' : Nat} (h : lo' ≤ lo) {m : Memory} (hm : Memory.wfFrom lo m = true) :
    Memory.wfFrom lo' m = true := by
  cases m with
  | nil => rfl
  | cons c m => 
    simp only [Memory.wfFrom, Bool.and_eq_true, decide_eq_true_eq] at *
    exact ⟨⟨⟨by omega, hm.1.1.2⟩, hm.1.2⟩, hm.2⟩

theorem Memory.wfFrom_unlist {lo : Nat} {m : Memory} (k : Nat) (hm : Memory.wfFrom lo m = true) :
    Memory.wfFrom lo (Memory.unlist m k) = true := by
  induction m generalizing lo with
  | nil => rfl
  | cons c m ih =>
    simp only [Memory.wfFrom, Bool.and_eq_true, decide_eq_true_eq] at hm
    rw [Memory.unlist]
    by_cases hc : c.1 = k
    · rw [List.filter_cons_of_neg (by simpa using hc)]
      exact Memory.wfFrom_mono (by omega) (ih hm.2)
    · rw [List.filter_cons_of_pos (by simpa using hc)]
      simp only [Memory.wfFrom, Bool.and_eq_true, decide_eq_true_eq]
      exact ⟨hm.1, ih hm.2⟩

theorem Memory.wfFrom_enlist {lo k : Nat} {m : Memory} {v : Byte} (hlo : lo ≤ k) (hk : k < 65536)
    (hv : v ≠ Config.unlistedByte) (hm : Memory.wfFrom lo m = true) :
    Memory.wfFrom lo (Memory.enlist m k v) = true := by
  induction m generalizing lo with
  | nil => simp [Memory.enlist, Memory.wfFrom, hlo, hk, hv]
  | cons c m ih =>
    simp only [Memory.wfFrom, Bool.and_eq_true, decide_eq_true_eq] at hm
    rw [Memory.enlist]
    split
    · simp only [Memory.wfFrom, Bool.and_eq_true, decide_eq_true_eq]
      exact ⟨⟨⟨hlo, hk⟩, hv⟩, ⟨⟨by omega, hm.1.1.2⟩, hm.1.2⟩, hm.2⟩
    · split
      · next h => simp only [Memory.wfFrom, Bool.and_eq_true, decide_eq_true_eq]; exact ⟨⟨⟨hlo, hk⟩, hv⟩, h ▸ hm.2⟩
      · simp only [Memory.wfFrom, Bool.and_eq_true, decide_eq_true_eq]
        exact ⟨hm.1, ih (by omega) hm.2⟩

/-- A write inside the address space keeps the canonical form. -/
theorem Memory.wf_writeByte {m : Memory} {k : Nat} (v : Byte) (hk : k < 65536) (hm : Memory.wf m = true) :
    Memory.wf (Memory.writeByte m k v) = true := by
  rw [Memory.writeByte]
  split
  · exact Memory.wfFrom_unlist k hm
  · next hv => exact Memory.wfFrom_enlist (Nat.zero_le k) hk hv hm

theorem Memory.readByte_below {lo k : Nat} {m : Memory} (hm : Memory.wfFrom lo m = true) (hk : k < lo) :
    Memory.readByte m k = Config.unlistedByte := by
  induction m generalizing lo with
  | nil => rfl
  | cons c m ih =>
    simp only [Memory.wfFrom, Bool.and_eq_true, decide_eq_true_eq] at hm
    rw [Memory.readByte_cons, if_neg (by omega)]
    exact ih hm.2 (by omega)

/-- Memories of canonical form that read alike are equal. -/
theorem Memory.wfFrom_ext {lo : Nat} {m m' : Memory} (hm : Memory.wfFrom lo m = true)
    (hm' : Memory.wfFrom lo m' = true) (h : ∀ k, Memory.readByte m k = Memory.readByte m' k) : m = m' := by
  induction m generalizing lo m' with
  | nil =>
    cases m' with
    | nil => rfl
    | cons c' m' =>
      simp only [Memory.wfFrom, Bool.and_eq_true, decide_eq_true_eq] at hm'
      have := h c'.1
      rw [Memory.readByte_cons, if_pos rfl] at this
      exact absurd this.symm hm'.1.2
  | cons c m ih =>
    simp only [Memory.wfFrom, Bool.and_eq_true, decide_eq_true_eq] at hm
    cases m' with
    | nil =>
      have := h c.1
      rw [Memory.readByte_cons, if_pos rfl] at this
      exact absurd this hm.1.2
    | cons c' m' =>
      simp only [Memory.wfFrom, Bool.and_eq_true, decide_eq_true_eq] at hm'
      have hkey : c.1 = c'.1 := by
        rcases Nat.lt_trichotomy c.1 c'.1 with hlt | heq | hgt
        · have := h c.1
          rw [Memory.readByte_cons, if_pos rfl, Memory.readByte_cons, if_neg (by omega),
            Memory.readByte_below hm'.2 (by omega)] at this
          exact absurd this hm.1.2
        · exact heq
        · have := h c'.1
          rw [Memory.readByte_cons, if_neg (by omega), Memory.readByte_below hm.2 (by omega),
            Memory.readByte_cons, if_pos rfl] at this
          exact absurd this.symm hm'.1.2
      have hval : c.2 = c'.2 := by
        have := h c.1
        rwa [Memory.readByte_cons, if_pos rfl, Memory.readByte_cons, if_pos hkey.symm] at this
      have hc : c = c' := Prod.ext hkey hval
      subst hc
      congr 1
      refine ih hm.2 hm'.2 fun k => ?_
      have := h k
      rw [Memory.readByte_cons, Memory.readByte_cons] at this
      by_cases hk : c.1 = k
      · rw [Memory.readByte_below hm.2 (by omega), Memory.readByte_below hm'.2 (by omega)]
      · rwa [if_neg hk, if_neg hk] at this

end Sys2Proof.Machine
end

