-- ==== Sys2Proof/Laws/State.lean ====
section
/-! SUPPORT. What each named operation does to each field of State, one lemma per field per operation, so that no
later proof unfolds a record update. -/

namespace Sys2Proof.Machine

variable (s : State)

@[simp] theorem State.write_a (addr : Addr) (v : Byte) : (s.write addr v).a = s.a := rfl
@[simp] theorem State.write_x (addr : Addr) (v : Byte) : (s.write addr v).x = s.x := rfl
@[simp] theorem State.write_y (addr : Addr) (v : Byte) : (s.write addr v).y = s.y := rfl
@[simp] theorem State.write_sp (addr : Addr) (v : Byte) : (s.write addr v).sp = s.sp := rfl
@[simp] theorem State.write_pc (addr : Addr) (v : Byte) : (s.write addr v).pc = s.pc := rfl
@[simp] theorem State.write_p (addr : Addr) (v : Byte) : (s.write addr v).p = s.p := rfl
@[simp] theorem State.write_mem (addr : Addr) (v : Byte) : (s.write addr v).mem = Memory.writeByte s.mem addr.toNat v := rfl

@[simp] theorem State.advance_a (n : Nat) : (s.advance n).a = s.a := rfl
@[simp] theorem State.advance_x (n : Nat) : (s.advance n).x = s.x := rfl
@[simp] theorem State.advance_y (n : Nat) : (s.advance n).y = s.y := rfl
@[simp] theorem State.advance_sp (n : Nat) : (s.advance n).sp = s.sp := rfl
@[simp] theorem State.advance_pc (n : Nat) : (s.advance n).pc = s.pc + BitVec.ofNat 16 n := rfl
@[simp] theorem State.advance_p (n : Nat) : (s.advance n).p = s.p := rfl
@[simp] theorem State.advance_mem (n : Nat) : (s.advance n).mem = s.mem := rfl

@[simp] theorem State.push8_a (v : Byte) : (s.push8 v).a = s.a := rfl
@[simp] theorem State.push8_x (v : Byte) : (s.push8 v).x = s.x := rfl
@[simp] theorem State.push8_y (v : Byte) : (s.push8 v).y = s.y := rfl
@[simp] theorem State.push8_sp (v : Byte) : (s.push8 v).sp = s.sp - 1 := rfl
@[simp] theorem State.push8_pc (v : Byte) : (s.push8 v).pc = s.pc := rfl
@[simp] theorem State.push8_p (v : Byte) : (s.push8 v).p = s.p := rfl
@[simp] theorem State.push8_mem (v : Byte) : (s.push8 v).mem = Memory.writeByte s.mem (stackAddr s.sp).toNat v := rfl

@[simp] theorem State.push16_a (w : Addr) : (s.push16 w).a = s.a := rfl
@[simp] theorem State.push16_x (w : Addr) : (s.push16 w).x = s.x := rfl
@[simp] theorem State.push16_y (w : Addr) : (s.push16 w).y = s.y := rfl
@[simp] theorem State.push16_sp (w : Addr) : (s.push16 w).sp = s.sp - 1 - 1 := rfl
@[simp] theorem State.push16_pc (w : Addr) : (s.push16 w).pc = s.pc := rfl
@[simp] theorem State.push16_p (w : Addr) : (s.push16 w).p = s.p := rfl
@[simp] theorem State.push16_mem (w : Addr) : (s.push16 w).mem = Memory.writeByte (Memory.writeByte s.mem (stackAddr s.sp).toNat (hi8 w)) (stackAddr (s.sp - 1)).toNat (lo8 w) := rfl

@[simp] theorem State.enterTrap_a (ret : Addr) : (s.enterTrap ret).a = s.a := by
  simp only [State.enterTrap, State.push8_a, State.push16_a]
@[simp] theorem State.enterTrap_x (ret : Addr) : (s.enterTrap ret).x = s.x := by
  simp only [State.enterTrap, State.push8_x, State.push16_x]
@[simp] theorem State.enterTrap_y (ret : Addr) : (s.enterTrap ret).y = s.y := by
  simp only [State.enterTrap, State.push8_y, State.push16_y]
@[simp] theorem State.enterTrap_sp (ret : Addr) : (s.enterTrap ret).sp = s.sp - 1 - 1 - 1 := rfl
@[simp] theorem State.enterTrap_pc (ret : Addr) : (s.enterTrap ret).pc = ((s.push16 ret).push8 s.p.pushed).read16 Config.breakVector := rfl
@[simp] theorem State.enterTrap_p (ret : Addr) : (s.enterTrap ret).p = { s.p with i := true } := rfl
@[simp] theorem State.enterTrap_mem (ret : Addr) : (s.enterTrap ret).mem = ((s.push16 ret).push8 s.p.pushed).mem := rfl

@[simp] theorem State.returnFromTrap_a : s.returnFromTrap.a = s.a := rfl
@[simp] theorem State.returnFromTrap_x : s.returnFromTrap.x = s.x := rfl
@[simp] theorem State.returnFromTrap_y : s.returnFromTrap.y = s.y := rfl
@[simp] theorem State.returnFromTrap_sp : s.returnFromTrap.sp = s.sp + 1 + 1 + 1 := rfl
@[simp] theorem State.returnFromTrap_pc : s.returnFromTrap.pc = joinBytes (s.read (stackAddr (s.sp + 1 + 1 + 1))) (s.read (stackAddr (s.sp + 1 + 1))) := rfl
@[simp] theorem State.returnFromTrap_p : s.returnFromTrap.p = s.p.pulled (s.read (stackAddr (s.sp + 1))) := rfl
@[simp] theorem State.returnFromTrap_mem : s.returnFromTrap.mem = s.mem := rfl

@[simp] theorem State.resetEntry_a (r : Byte) : (State.resetEntry r s).a = 0x00 := rfl
@[simp] theorem State.resetEntry_x (r : Byte) : (State.resetEntry r s).x = 0x00 := rfl
@[simp] theorem State.resetEntry_y (r : Byte) : (State.resetEntry r s).y = 0x00 := rfl
@[simp] theorem State.resetEntry_sp (r : Byte) : (State.resetEntry r s).sp = r := rfl
@[simp] theorem State.resetEntry_pc (r : Byte) : (State.resetEntry r s).pc = s.read16 Config.resetVector := rfl
@[simp] theorem State.resetEntry_p (r : Byte) : (State.resetEntry r s).p = Status.clear := rfl
@[simp] theorem State.resetEntry_mem (r : Byte) : (State.resetEntry r s).mem = s.mem := rfl

@[simp] theorem State.pop8_value : s.pop8.1 = s.read (stackAddr (s.sp + 1)) := rfl
@[simp] theorem State.pop8_state : s.pop8.2 = { s with sp := s.sp + 1 } := rfl
@[simp] theorem State.pop16_value : s.pop16.1 = joinBytes (s.read (stackAddr (s.sp + 1 + 1))) (s.read (stackAddr (s.sp + 1))) := rfl
@[simp] theorem State.pop16_state : s.pop16.2 = { s with sp := s.sp + 1 + 1 } := rfl

variable (p : Status)

@[simp] theorem Status.setZN_n (v : Byte) : (p.setZN v).n = bit7 v := rfl
@[simp] theorem Status.setZN_v (v : Byte) : (p.setZN v).v = p.v := rfl
@[simp] theorem Status.setZN_u (v : Byte) : (p.setZN v).u = p.u := rfl
@[simp] theorem Status.setZN_b (v : Byte) : (p.setZN v).b = p.b := rfl
@[simp] theorem Status.setZN_d (v : Byte) : (p.setZN v).d = p.d := rfl
@[simp] theorem Status.setZN_i (v : Byte) : (p.setZN v).i = p.i := rfl
@[simp] theorem Status.setZN_z (v : Byte) : (p.setZN v).z = (v == 0) := rfl
@[simp] theorem Status.setZN_c (v : Byte) : (p.setZN v).c = p.c := rfl

@[simp] theorem Status.setAdder_n (out : AdderOut) : (p.setAdder out).n = out.n := rfl
@[simp] theorem Status.setAdder_v (out : AdderOut) : (p.setAdder out).v = out.v := rfl
@[simp] theorem Status.setAdder_u (out : AdderOut) : (p.setAdder out).u = p.u := rfl
@[simp] theorem Status.setAdder_b (out : AdderOut) : (p.setAdder out).b = p.b := rfl
@[simp] theorem Status.setAdder_d (out : AdderOut) : (p.setAdder out).d = p.d := rfl
@[simp] theorem Status.setAdder_i (out : AdderOut) : (p.setAdder out).i = p.i := rfl
@[simp] theorem Status.setAdder_z (out : AdderOut) : (p.setAdder out).z = out.z := rfl
@[simp] theorem Status.setAdder_c (out : AdderOut) : (p.setAdder out).c = out.c := rfl

@[simp] theorem Status.compare_n (reg m : Byte) : (p.compare reg m).n = bit7 (reg - m) := rfl
@[simp] theorem Status.compare_v (reg m : Byte) : (p.compare reg m).v = p.v := rfl
@[simp] theorem Status.compare_u (reg m : Byte) : (p.compare reg m).u = p.u := rfl
@[simp] theorem Status.compare_b (reg m : Byte) : (p.compare reg m).b = p.b := rfl
@[simp] theorem Status.compare_d (reg m : Byte) : (p.compare reg m).d = p.d := rfl
@[simp] theorem Status.compare_i (reg m : Byte) : (p.compare reg m).i = p.i := rfl
@[simp] theorem Status.compare_z (reg m : Byte) : (p.compare reg m).z = (reg - m == 0) := rfl
@[simp] theorem Status.compare_c (reg m : Byte) : (p.compare reg m).c = decide (reg.toNat ≥ m.toNat) := rfl

@[simp] theorem Status.bitTest_n (a m : Byte) : (p.bitTest a m).n = m.getLsbD 7 := rfl
@[simp] theorem Status.bitTest_v (a m : Byte) : (p.bitTest a m).v = m.getLsbD 6 := rfl
@[simp] theorem Status.bitTest_u (a m : Byte) : (p.bitTest a m).u = p.u := rfl
@[simp] theorem Status.bitTest_b (a m : Byte) : (p.bitTest a m).b = p.b := rfl
@[simp] theorem Status.bitTest_d (a m : Byte) : (p.bitTest a m).d = p.d := rfl
@[simp] theorem Status.bitTest_i (a m : Byte) : (p.bitTest a m).i = p.i := rfl
@[simp] theorem Status.bitTest_z (a m : Byte) : (p.bitTest a m).z = (a &&& m == 0) := rfl
@[simp] theorem Status.bitTest_c (a m : Byte) : (p.bitTest a m).c = p.c := rfl

@[simp] theorem Status.pulled_n (w : Byte) : (p.pulled w).n = w.getLsbD 7 := rfl
@[simp] theorem Status.pulled_v (w : Byte) : (p.pulled w).v = w.getLsbD 6 := rfl
@[simp] theorem Status.pulled_u (w : Byte) : (p.pulled w).u = p.u := rfl
@[simp] theorem Status.pulled_b (w : Byte) : (p.pulled w).b = p.b := rfl
@[simp] theorem Status.pulled_d (w : Byte) : (p.pulled w).d = w.getLsbD 3 := rfl
@[simp] theorem Status.pulled_i (w : Byte) : (p.pulled w).i = w.getLsbD 2 := rfl
@[simp] theorem Status.pulled_z (w : Byte) : (p.pulled w).z = w.getLsbD 1 := rfl
@[simp] theorem Status.pulled_c (w : Byte) : (p.pulled w).c = w.getLsbD 0 := rfl

@[simp] theorem Status.shifted_n (out : Byte × Bool) : (p.shifted out).n = bit7 out.1 := rfl
@[simp] theorem Status.shifted_v (out : Byte × Bool) : (p.shifted out).v = p.v := rfl
@[simp] theorem Status.shifted_u (out : Byte × Bool) : (p.shifted out).u = p.u := rfl
@[simp] theorem Status.shifted_b (out : Byte × Bool) : (p.shifted out).b = p.b := rfl
@[simp] theorem Status.shifted_d (out : Byte × Bool) : (p.shifted out).d = p.d := rfl
@[simp] theorem Status.shifted_i (out : Byte × Bool) : (p.shifted out).i = p.i := rfl
@[simp] theorem Status.shifted_z (out : Byte × Bool) : (p.shifted out).z = (out.1 == 0) := rfl
@[simp] theorem Status.shifted_c (out : Byte × Bool) : (p.shifted out).c = out.2 := rfl

end Sys2Proof.Machine
end

