-- ==== Sys2Proof/Laws/Ops.lean ====
section
/-! SUPPORT. What the shared operations do to reads and to the canonical form of memory, once each, for later proofs to
cite (20_memory.md R53 to R63). -/

namespace Sys2Proof.Machine

/-- A read after a write (R57, R65). -/
@[simp] theorem State.read_write (s : State) (a b : Addr) (v : Byte) :
    (s.write a v).read b = if b = a then v else s.read b := by
  simp only [State.read, State.write_mem, Memory.readByte_writeByte, BitVec.toNat_inj]

/-- Nothing but the memory decides a read. -/
theorem State.read_congr {s t : State} (h : s.mem = t.mem) (a : Addr) : s.read a = t.read a := by
  rw [State.read, State.read, h]

@[simp] theorem State.read_advance (s : State) (n : Nat) (a : Addr) : (s.advance n).read a = s.read a := rfl

/-- A push changes the byte of its slot and no other (R58). -/
@[simp] theorem State.read_push8 (s : State) (v : Byte) (a : Addr) :
    (s.push8 v).read a = if a = stackAddr s.sp then v else s.read a := State.read_write s _ a v

/-- A 16-bit push writes the low byte at S - 1 over the high byte at S (R60). -/
theorem State.read_push16 (s : State) (w a : Addr) :
    (s.push16 w).read a =
      if a = stackAddr (s.sp - 1) then lo8 w else if a = stackAddr s.sp then hi8 w else s.read a := by
  rw [State.push16, State.read_push8, State.read_push8, State.push8_sp]

/-- Halves of a joined word (R11). -/
@[simp] theorem hi8_joinBytes (h l : Byte) : hi8 (joinBytes h l) = h := by
  apply BitVec.eq_of_getLsbD_eq
  intro k hk
  simp only [hi8, joinBytes, BitVec.getLsbD_extractLsb', BitVec.getLsbD_append]
  simp [hk]

@[simp] theorem lo8_joinBytes (h l : Byte) : lo8 (joinBytes h l) = l := by
  apply BitVec.eq_of_getLsbD_eq
  intro k hk
  simp only [lo8, joinBytes, BitVec.getLsbD_extractLsb', BitVec.getLsbD_append]
  simp [hk]

/-- A word is its two halves (R11, R54). -/
@[simp] theorem joinBytes_halves (w : Addr) : joinBytes (hi8 w) (lo8 w) = w := by
  apply BitVec.eq_of_getLsbD_eq
  intro k hk
  simp only [joinBytes, hi8, lo8, BitVec.getLsbD_append, BitVec.getLsbD_extractLsb']
  split
  · simp_all
  · have : 8 + (k - 8) = k := by omega
    simp [this, show k - 8 < 8 by omega]

/-- Distinct stack indices designate distinct slots (R24). -/
theorem stackAddr_inj {i j : Byte} : stackAddr i = stackAddr j ↔ i = j := by
  refine ⟨fun h => ?_, congrArg _⟩
  simpa [stackAddr] using congrArg lo8 h

/-! ### The same words as numbers -/

@[simp] theorem joinBytes_toNat (h l : Byte) : (joinBytes h l).toNat = 256 * h.toNat + l.toNat := by
  simp only [joinBytes, BitVec.toNat_append]
  rw [← Nat.shiftLeft_add_eq_or_of_lt (by omega), Nat.shiftLeft_eq]
  omega

theorem hi8_toNat (w : Addr) : (hi8 w).toNat = w.toNat / 256 := by
  simp only [hi8, BitVec.extractLsb'_toNat, Nat.shiftRight_eq_div_pow]
  omega

theorem lo8_toNat (w : Addr) : (lo8 w).toNat = w.toNat % 256 := by
  simp only [lo8, BitVec.extractLsb'_toNat, Nat.shiftRight_zero]

@[simp] theorem zeroPageAddr_toNat (z : Byte) : (zeroPageAddr z).toNat = z.toNat := by
  simp only [zeroPageAddr, joinBytes_toNat]
  simp

theorem stackAddr_toNat (i : Byte) : (stackAddr i).toNat = 256 + i.toNat := by
  rw [stackAddr, joinBytes_toNat]
  rfl

/-- The address of a stack slot, as the spec writes it (R24). -/
theorem stackAddr_eq (i : Byte) : stackAddr i = 0x0100 + i.zeroExtend 16 := by
  apply BitVec.eq_of_toNat_eq
  rw [stackAddr_toNat]
  simp
  omega

/-- The trap's three stores and nothing else (R265). -/
theorem State.read_enterTrap (s : State) (ret a : Addr) :
    (s.enterTrap ret).read a =
      if a = stackAddr (s.sp - 1 - 1) then s.p.pushed
      else if a = stackAddr (s.sp - 1) then lo8 ret
      else if a = stackAddr s.sp then hi8 ret else s.read a := by
  rw [State.read_congr (State.enterTrap_mem s ret), State.read_push8, State.push16_sp, State.read_push16]

/-- The return from the trap stores nothing (R267). -/
@[simp] theorem State.read_returnFromTrap (s : State) (a : Addr) : s.returnFromTrap.read a = s.read a :=
  State.read_congr (State.returnFromTrap_mem s) a

/-- Reset stores nothing (R41). -/
@[simp] theorem State.read_resetEntry (r : Byte) (s : State) (a : Addr) : (State.resetEntry r s).read a = s.read a := rfl

/-- A write keeps the canonical form. -/
theorem State.write_wf {s : State} (h : Memory.wf s.mem = true) (a : Addr) (v : Byte) :
    Memory.wf (s.write a v).mem = true := Memory.wf_writeByte v a.isLt h

theorem State.push8_wf {s : State} (h : Memory.wf s.mem = true) (v : Byte) : Memory.wf (s.push8 v).mem = true :=
  State.write_wf h _ v

theorem State.push16_wf {s : State} (h : Memory.wf s.mem = true) (w : Addr) : Memory.wf (s.push16 w).mem = true :=
  State.push8_wf (State.push8_wf h _) _

theorem State.enterTrap_wf {s : State} (h : Memory.wf s.mem = true) (ret : Addr) :
    Memory.wf (s.enterTrap ret).mem = true := State.push8_wf (State.push16_wf h ret) _

/-- The memory of the machine after reset is in canonical form. -/
theorem State.reset_memory_wf : Memory.wf State.reset.mem = true := rfl

/-- The machine after reset is `Reset` applied to a machine whose memory lists nothing (R290). -/
theorem State.reset_eq_resetEntry (s : State) : State.reset = State.resetEntry Config.resetS { s with mem := [] } := by
  simp [State.reset, State.resetEntry, State.read16, State.read, Memory.readByte, Config.unlistedByte, joinBytes]

end Sys2Proof.Machine
end

