-- ==== Sys2Proof/Laws/PerInstr.lean ====
section
/-! SUPPORT. The family of statements made once per instruction: every constructor is a well-formed instruction whose
opcode has a descriptor of the same operation and mode, and whose encoding has the length of its format
(30_encoding.md R82, R83, R85, R88). -/

namespace Sys2Proof.Laws

/-- The instruction as syntax: well formed, described by the table under its own operation and mode, encoded in as many
bytes as its mode has. -/
def Encoding.Statement (i : Instr) : Prop :=
  WellFormed i = true ∧
  (∃ d, descriptor i.opcode = some d ∧ d.operation = i.operation ∧ d.mode = i.operand.mode) ∧
  (encode i).length = i.length

theorem Encoding.adcImm (imm8 : Byte) : Encoding.Statement (.adcImm imm8) := ⟨rfl, ⟨_, rfl, rfl, rfl⟩, rfl⟩
theorem Encoding.adcZp (zp8 : Byte) : Encoding.Statement (.adcZp zp8) := ⟨rfl, ⟨_, rfl, rfl, rfl⟩, rfl⟩
theorem Encoding.adcZpX (zp8 : Byte) : Encoding.Statement (.adcZpX zp8) := ⟨rfl, ⟨_, rfl, rfl, rfl⟩, rfl⟩
theorem Encoding.adcAbs (addr : Addr) : Encoding.Statement (.adcAbs addr) := ⟨rfl, ⟨_, rfl, rfl, rfl⟩, rfl⟩
theorem Encoding.adcAbsX (addr : Addr) : Encoding.Statement (.adcAbsX addr) := ⟨rfl, ⟨_, rfl, rfl, rfl⟩, rfl⟩
theorem Encoding.adcAbsY (addr : Addr) : Encoding.Statement (.adcAbsY addr) := ⟨rfl, ⟨_, rfl, rfl, rfl⟩, rfl⟩
theorem Encoding.adcIndX (zp8 : Byte) : Encoding.Statement (.adcIndX zp8) := ⟨rfl, ⟨_, rfl, rfl, rfl⟩, rfl⟩
theorem Encoding.adcIndY (zp8 : Byte) : Encoding.Statement (.adcIndY zp8) := ⟨rfl, ⟨_, rfl, rfl, rfl⟩, rfl⟩
theorem Encoding.andImm (imm8 : Byte) : Encoding.Statement (.andImm imm8) := ⟨rfl, ⟨_, rfl, rfl, rfl⟩, rfl⟩
theorem Encoding.andZp (zp8 : Byte) : Encoding.Statement (.andZp zp8) := ⟨rfl, ⟨_, rfl, rfl, rfl⟩, rfl⟩
theorem Encoding.andZpX (zp8 : Byte) : Encoding.Statement (.andZpX zp8) := ⟨rfl, ⟨_, rfl, rfl, rfl⟩, rfl⟩
theorem Encoding.andAbs (addr : Addr) : Encoding.Statement (.andAbs addr) := ⟨rfl, ⟨_, rfl, rfl, rfl⟩, rfl⟩
theorem Encoding.andAbsX (addr : Addr) : Encoding.Statement (.andAbsX addr) := ⟨rfl, ⟨_, rfl, rfl, rfl⟩, rfl⟩
theorem Encoding.andAbsY (addr : Addr) : Encoding.Statement (.andAbsY addr) := ⟨rfl, ⟨_, rfl, rfl, rfl⟩, rfl⟩
theorem Encoding.andIndX (zp8 : Byte) : Encoding.Statement (.andIndX zp8) := ⟨rfl, ⟨_, rfl, rfl, rfl⟩, rfl⟩
theorem Encoding.andIndY (zp8 : Byte) : Encoding.Statement (.andIndY zp8) := ⟨rfl, ⟨_, rfl, rfl, rfl⟩, rfl⟩
theorem Encoding.aslAcc : Encoding.Statement .aslAcc := ⟨rfl, ⟨_, rfl, rfl, rfl⟩, rfl⟩
theorem Encoding.aslZp (zp8 : Byte) : Encoding.Statement (.aslZp zp8) := ⟨rfl, ⟨_, rfl, rfl, rfl⟩, rfl⟩
theorem Encoding.aslZpX (zp8 : Byte) : Encoding.Statement (.aslZpX zp8) := ⟨rfl, ⟨_, rfl, rfl, rfl⟩, rfl⟩
theorem Encoding.aslAbs (addr : Addr) : Encoding.Statement (.aslAbs addr) := ⟨rfl, ⟨_, rfl, rfl, rfl⟩, rfl⟩
theorem Encoding.aslAbsX (addr : Addr) : Encoding.Statement (.aslAbsX addr) := ⟨rfl, ⟨_, rfl, rfl, rfl⟩, rfl⟩
theorem Encoding.bcc (rel8 : Byte) : Encoding.Statement (.bcc rel8) := ⟨rfl, ⟨_, rfl, rfl, rfl⟩, rfl⟩
theorem Encoding.bcs (rel8 : Byte) : Encoding.Statement (.bcs rel8) := ⟨rfl, ⟨_, rfl, rfl, rfl⟩, rfl⟩
theorem Encoding.beq (rel8 : Byte) : Encoding.Statement (.beq rel8) := ⟨rfl, ⟨_, rfl, rfl, rfl⟩, rfl⟩
theorem Encoding.bitZp (zp8 : Byte) : Encoding.Statement (.bitZp zp8) := ⟨rfl, ⟨_, rfl, rfl, rfl⟩, rfl⟩
theorem Encoding.bitAbs (addr : Addr) : Encoding.Statement (.bitAbs addr) := ⟨rfl, ⟨_, rfl, rfl, rfl⟩, rfl⟩
theorem Encoding.bmi (rel8 : Byte) : Encoding.Statement (.bmi rel8) := ⟨rfl, ⟨_, rfl, rfl, rfl⟩, rfl⟩
theorem Encoding.bne (rel8 : Byte) : Encoding.Statement (.bne rel8) := ⟨rfl, ⟨_, rfl, rfl, rfl⟩, rfl⟩
theorem Encoding.bpl (rel8 : Byte) : Encoding.Statement (.bpl rel8) := ⟨rfl, ⟨_, rfl, rfl, rfl⟩, rfl⟩
theorem Encoding.brk : Encoding.Statement .brk := ⟨rfl, ⟨_, rfl, rfl, rfl⟩, rfl⟩
theorem Encoding.bvc (rel8 : Byte) : Encoding.Statement (.bvc rel8) := ⟨rfl, ⟨_, rfl, rfl, rfl⟩, rfl⟩
theorem Encoding.bvs (rel8 : Byte) : Encoding.Statement (.bvs rel8) := ⟨rfl, ⟨_, rfl, rfl, rfl⟩, rfl⟩
theorem Encoding.clc : Encoding.Statement .clc := ⟨rfl, ⟨_, rfl, rfl, rfl⟩, rfl⟩
theorem Encoding.cld : Encoding.Statement .cld := ⟨rfl, ⟨_, rfl, rfl, rfl⟩, rfl⟩
theorem Encoding.cli : Encoding.Statement .cli := ⟨rfl, ⟨_, rfl, rfl, rfl⟩, rfl⟩
theorem Encoding.clv : Encoding.Statement .clv := ⟨rfl, ⟨_, rfl, rfl, rfl⟩, rfl⟩
theorem Encoding.cmpImm (imm8 : Byte) : Encoding.Statement (.cmpImm imm8) := ⟨rfl, ⟨_, rfl, rfl, rfl⟩, rfl⟩
theorem Encoding.cmpZp (zp8 : Byte) : Encoding.Statement (.cmpZp zp8) := ⟨rfl, ⟨_, rfl, rfl, rfl⟩, rfl⟩
theorem Encoding.cmpZpX (zp8 : Byte) : Encoding.Statement (.cmpZpX zp8) := ⟨rfl, ⟨_, rfl, rfl, rfl⟩, rfl⟩
theorem Encoding.cmpAbs (addr : Addr) : Encoding.Statement (.cmpAbs addr) := ⟨rfl, ⟨_, rfl, rfl, rfl⟩, rfl⟩
theorem Encoding.cmpAbsX (addr : Addr) : Encoding.Statement (.cmpAbsX addr) := ⟨rfl, ⟨_, rfl, rfl, rfl⟩, rfl⟩
theorem Encoding.cmpAbsY (addr : Addr) : Encoding.Statement (.cmpAbsY addr) := ⟨rfl, ⟨_, rfl, rfl, rfl⟩, rfl⟩
theorem Encoding.cmpIndX (zp8 : Byte) : Encoding.Statement (.cmpIndX zp8) := ⟨rfl, ⟨_, rfl, rfl, rfl⟩, rfl⟩
theorem Encoding.cmpIndY (zp8 : Byte) : Encoding.Statement (.cmpIndY zp8) := ⟨rfl, ⟨_, rfl, rfl, rfl⟩, rfl⟩
theorem Encoding.cpxImm (imm8 : Byte) : Encoding.Statement (.cpxImm imm8) := ⟨rfl, ⟨_, rfl, rfl, rfl⟩, rfl⟩
theorem Encoding.cpxZp (zp8 : Byte) : Encoding.Statement (.cpxZp zp8) := ⟨rfl, ⟨_, rfl, rfl, rfl⟩, rfl⟩
theorem Encoding.cpxAbs (addr : Addr) : Encoding.Statement (.cpxAbs addr) := ⟨rfl, ⟨_, rfl, rfl, rfl⟩, rfl⟩
theorem Encoding.cpyImm (imm8 : Byte) : Encoding.Statement (.cpyImm imm8) := ⟨rfl, ⟨_, rfl, rfl, rfl⟩, rfl⟩
theorem Encoding.cpyZp (zp8 : Byte) : Encoding.Statement (.cpyZp zp8) := ⟨rfl, ⟨_, rfl, rfl, rfl⟩, rfl⟩
theorem Encoding.cpyAbs (addr : Addr) : Encoding.Statement (.cpyAbs addr) := ⟨rfl, ⟨_, rfl, rfl, rfl⟩, rfl⟩
theorem Encoding.decZp (zp8 : Byte) : Encoding.Statement (.decZp zp8) := ⟨rfl, ⟨_, rfl, rfl, rfl⟩, rfl⟩
theorem Encoding.decZpX (zp8 : Byte) : Encoding.Statement (.decZpX zp8) := ⟨rfl, ⟨_, rfl, rfl, rfl⟩, rfl⟩
theorem Encoding.decAbs (addr : Addr) : Encoding.Statement (.decAbs addr) := ⟨rfl, ⟨_, rfl, rfl, rfl⟩, rfl⟩
theorem Encoding.decAbsX (addr : Addr) : Encoding.Statement (.decAbsX addr) := ⟨rfl, ⟨_, rfl, rfl, rfl⟩, rfl⟩
theorem Encoding.dex : Encoding.Statement .dex := ⟨rfl, ⟨_, rfl, rfl, rfl⟩, rfl⟩
theorem Encoding.dey : Encoding.Statement .dey := ⟨rfl, ⟨_, rfl, rfl, rfl⟩, rfl⟩
theorem Encoding.eorImm (imm8 : Byte) : Encoding.Statement (.eorImm imm8) := ⟨rfl, ⟨_, rfl, rfl, rfl⟩, rfl⟩
theorem Encoding.eorZp (zp8 : Byte) : Encoding.Statement (.eorZp zp8) := ⟨rfl, ⟨_, rfl, rfl, rfl⟩, rfl⟩
theorem Encoding.eorZpX (zp8 : Byte) : Encoding.Statement (.eorZpX zp8) := ⟨rfl, ⟨_, rfl, rfl, rfl⟩, rfl⟩
theorem Encoding.eorAbs (addr : Addr) : Encoding.Statement (.eorAbs addr) := ⟨rfl, ⟨_, rfl, rfl, rfl⟩, rfl⟩
theorem Encoding.eorAbsX (addr : Addr) : Encoding.Statement (.eorAbsX addr) := ⟨rfl, ⟨_, rfl, rfl, rfl⟩, rfl⟩
theorem Encoding.eorAbsY (addr : Addr) : Encoding.Statement (.eorAbsY addr) := ⟨rfl, ⟨_, rfl, rfl, rfl⟩, rfl⟩
theorem Encoding.eorIndX (zp8 : Byte) : Encoding.Statement (.eorIndX zp8) := ⟨rfl, ⟨_, rfl, rfl, rfl⟩, rfl⟩
theorem Encoding.eorIndY (zp8 : Byte) : Encoding.Statement (.eorIndY zp8) := ⟨rfl, ⟨_, rfl, rfl, rfl⟩, rfl⟩
theorem Encoding.incZp (zp8 : Byte) : Encoding.Statement (.incZp zp8) := ⟨rfl, ⟨_, rfl, rfl, rfl⟩, rfl⟩
theorem Encoding.incZpX (zp8 : Byte) : Encoding.Statement (.incZpX zp8) := ⟨rfl, ⟨_, rfl, rfl, rfl⟩, rfl⟩
theorem Encoding.incAbs (addr : Addr) : Encoding.Statement (.incAbs addr) := ⟨rfl, ⟨_, rfl, rfl, rfl⟩, rfl⟩
theorem Encoding.incAbsX (addr : Addr) : Encoding.Statement (.incAbsX addr) := ⟨rfl, ⟨_, rfl, rfl, rfl⟩, rfl⟩
theorem Encoding.inx : Encoding.Statement .inx := ⟨rfl, ⟨_, rfl, rfl, rfl⟩, rfl⟩
theorem Encoding.iny : Encoding.Statement .iny := ⟨rfl, ⟨_, rfl, rfl, rfl⟩, rfl⟩
theorem Encoding.jmpAbs (addr : Addr) : Encoding.Statement (.jmpAbs addr) := ⟨rfl, ⟨_, rfl, rfl, rfl⟩, rfl⟩
theorem Encoding.jmpInd (ptr : Addr) : Encoding.Statement (.jmpInd ptr) := ⟨rfl, ⟨_, rfl, rfl, rfl⟩, rfl⟩
theorem Encoding.jsr (addr : Addr) : Encoding.Statement (.jsr addr) := ⟨rfl, ⟨_, rfl, rfl, rfl⟩, rfl⟩
theorem Encoding.ldaImm (imm8 : Byte) : Encoding.Statement (.ldaImm imm8) := ⟨rfl, ⟨_, rfl, rfl, rfl⟩, rfl⟩
theorem Encoding.ldaZp (zp8 : Byte) : Encoding.Statement (.ldaZp zp8) := ⟨rfl, ⟨_, rfl, rfl, rfl⟩, rfl⟩
theorem Encoding.ldaZpX (zp8 : Byte) : Encoding.Statement (.ldaZpX zp8) := ⟨rfl, ⟨_, rfl, rfl, rfl⟩, rfl⟩
theorem Encoding.ldaAbs (addr : Addr) : Encoding.Statement (.ldaAbs addr) := ⟨rfl, ⟨_, rfl, rfl, rfl⟩, rfl⟩
theorem Encoding.ldaAbsX (addr : Addr) : Encoding.Statement (.ldaAbsX addr) := ⟨rfl, ⟨_, rfl, rfl, rfl⟩, rfl⟩
theorem Encoding.ldaAbsY (addr : Addr) : Encoding.Statement (.ldaAbsY addr) := ⟨rfl, ⟨_, rfl, rfl, rfl⟩, rfl⟩
theorem Encoding.ldaIndX (zp8 : Byte) : Encoding.Statement (.ldaIndX zp8) := ⟨rfl, ⟨_, rfl, rfl, rfl⟩, rfl⟩
theorem Encoding.ldaIndY (zp8 : Byte) : Encoding.Statement (.ldaIndY zp8) := ⟨rfl, ⟨_, rfl, rfl, rfl⟩, rfl⟩
theorem Encoding.ldxImm (imm8 : Byte) : Encoding.Statement (.ldxImm imm8) := ⟨rfl, ⟨_, rfl, rfl, rfl⟩, rfl⟩
theorem Encoding.ldxZp (zp8 : Byte) : Encoding.Statement (.ldxZp zp8) := ⟨rfl, ⟨_, rfl, rfl, rfl⟩, rfl⟩
theorem Encoding.ldxZpY (zp8 : Byte) : Encoding.Statement (.ldxZpY zp8) := ⟨rfl, ⟨_, rfl, rfl, rfl⟩, rfl⟩
theorem Encoding.ldxAbs (addr : Addr) : Encoding.Statement (.ldxAbs addr) := ⟨rfl, ⟨_, rfl, rfl, rfl⟩, rfl⟩
theorem Encoding.ldxAbsY (addr : Addr) : Encoding.Statement (.ldxAbsY addr) := ⟨rfl, ⟨_, rfl, rfl, rfl⟩, rfl⟩
theorem Encoding.ldyImm (imm8 : Byte) : Encoding.Statement (.ldyImm imm8) := ⟨rfl, ⟨_, rfl, rfl, rfl⟩, rfl⟩
theorem Encoding.ldyZp (zp8 : Byte) : Encoding.Statement (.ldyZp zp8) := ⟨rfl, ⟨_, rfl, rfl, rfl⟩, rfl⟩
theorem Encoding.ldyZpX (zp8 : Byte) : Encoding.Statement (.ldyZpX zp8) := ⟨rfl, ⟨_, rfl, rfl, rfl⟩, rfl⟩
theorem Encoding.ldyAbs (addr : Addr) : Encoding.Statement (.ldyAbs addr) := ⟨rfl, ⟨_, rfl, rfl, rfl⟩, rfl⟩
theorem Encoding.ldyAbsX (addr : Addr) : Encoding.Statement (.ldyAbsX addr) := ⟨rfl, ⟨_, rfl, rfl, rfl⟩, rfl⟩
theorem Encoding.lsrAcc : Encoding.Statement .lsrAcc := ⟨rfl, ⟨_, rfl, rfl, rfl⟩, rfl⟩
theorem Encoding.lsrZp (zp8 : Byte) : Encoding.Statement (.lsrZp zp8) := ⟨rfl, ⟨_, rfl, rfl, rfl⟩, rfl⟩
theorem Encoding.lsrZpX (zp8 : Byte) : Encoding.Statement (.lsrZpX zp8) := ⟨rfl, ⟨_, rfl, rfl, rfl⟩, rfl⟩
theorem Encoding.lsrAbs (addr : Addr) : Encoding.Statement (.lsrAbs addr) := ⟨rfl, ⟨_, rfl, rfl, rfl⟩, rfl⟩
theorem Encoding.lsrAbsX (addr : Addr) : Encoding.Statement (.lsrAbsX addr) := ⟨rfl, ⟨_, rfl, rfl, rfl⟩, rfl⟩
theorem Encoding.nop : Encoding.Statement .nop := ⟨rfl, ⟨_, rfl, rfl, rfl⟩, rfl⟩
theorem Encoding.oraImm (imm8 : Byte) : Encoding.Statement (.oraImm imm8) := ⟨rfl, ⟨_, rfl, rfl, rfl⟩, rfl⟩
theorem Encoding.oraZp (zp8 : Byte) : Encoding.Statement (.oraZp zp8) := ⟨rfl, ⟨_, rfl, rfl, rfl⟩, rfl⟩
theorem Encoding.oraZpX (zp8 : Byte) : Encoding.Statement (.oraZpX zp8) := ⟨rfl, ⟨_, rfl, rfl, rfl⟩, rfl⟩
theorem Encoding.oraAbs (addr : Addr) : Encoding.Statement (.oraAbs addr) := ⟨rfl, ⟨_, rfl, rfl, rfl⟩, rfl⟩
theorem Encoding.oraAbsX (addr : Addr) : Encoding.Statement (.oraAbsX addr) := ⟨rfl, ⟨_, rfl, rfl, rfl⟩, rfl⟩
theorem Encoding.oraAbsY (addr : Addr) : Encoding.Statement (.oraAbsY addr) := ⟨rfl, ⟨_, rfl, rfl, rfl⟩, rfl⟩
theorem Encoding.oraIndX (zp8 : Byte) : Encoding.Statement (.oraIndX zp8) := ⟨rfl, ⟨_, rfl, rfl, rfl⟩, rfl⟩
theorem Encoding.oraIndY (zp8 : Byte) : Encoding.Statement (.oraIndY zp8) := ⟨rfl, ⟨_, rfl, rfl, rfl⟩, rfl⟩
theorem Encoding.pha : Encoding.Statement .pha := ⟨rfl, ⟨_, rfl, rfl, rfl⟩, rfl⟩
theorem Encoding.php : Encoding.Statement .php := ⟨rfl, ⟨_, rfl, rfl, rfl⟩, rfl⟩
theorem Encoding.pla : Encoding.Statement .pla := ⟨rfl, ⟨_, rfl, rfl, rfl⟩, rfl⟩
theorem Encoding.plp : Encoding.Statement .plp := ⟨rfl, ⟨_, rfl, rfl, rfl⟩, rfl⟩
theorem Encoding.rolAcc : Encoding.Statement .rolAcc := ⟨rfl, ⟨_, rfl, rfl, rfl⟩, rfl⟩
theorem Encoding.rolZp (zp8 : Byte) : Encoding.Statement (.rolZp zp8) := ⟨rfl, ⟨_, rfl, rfl, rfl⟩, rfl⟩
theorem Encoding.rolZpX (zp8 : Byte) : Encoding.Statement (.rolZpX zp8) := ⟨rfl, ⟨_, rfl, rfl, rfl⟩, rfl⟩
theorem Encoding.rolAbs (addr : Addr) : Encoding.Statement (.rolAbs addr) := ⟨rfl, ⟨_, rfl, rfl, rfl⟩, rfl⟩
theorem Encoding.rolAbsX (addr : Addr) : Encoding.Statement (.rolAbsX addr) := ⟨rfl, ⟨_, rfl, rfl, rfl⟩, rfl⟩
theorem Encoding.rorAcc : Encoding.Statement .rorAcc := ⟨rfl, ⟨_, rfl, rfl, rfl⟩, rfl⟩
theorem Encoding.rorZp (zp8 : Byte) : Encoding.Statement (.rorZp zp8) := ⟨rfl, ⟨_, rfl, rfl, rfl⟩, rfl⟩
theorem Encoding.rorZpX (zp8 : Byte) : Encoding.Statement (.rorZpX zp8) := ⟨rfl, ⟨_, rfl, rfl, rfl⟩, rfl⟩
theorem Encoding.rorAbs (addr : Addr) : Encoding.Statement (.rorAbs addr) := ⟨rfl, ⟨_, rfl, rfl, rfl⟩, rfl⟩
theorem Encoding.rorAbsX (addr : Addr) : Encoding.Statement (.rorAbsX addr) := ⟨rfl, ⟨_, rfl, rfl, rfl⟩, rfl⟩
theorem Encoding.rti : Encoding.Statement .rti := ⟨rfl, ⟨_, rfl, rfl, rfl⟩, rfl⟩
theorem Encoding.rts : Encoding.Statement .rts := ⟨rfl, ⟨_, rfl, rfl, rfl⟩, rfl⟩
theorem Encoding.sbcImm (imm8 : Byte) : Encoding.Statement (.sbcImm imm8) := ⟨rfl, ⟨_, rfl, rfl, rfl⟩, rfl⟩
theorem Encoding.sbcZp (zp8 : Byte) : Encoding.Statement (.sbcZp zp8) := ⟨rfl, ⟨_, rfl, rfl, rfl⟩, rfl⟩
theorem Encoding.sbcZpX (zp8 : Byte) : Encoding.Statement (.sbcZpX zp8) := ⟨rfl, ⟨_, rfl, rfl, rfl⟩, rfl⟩
theorem Encoding.sbcAbs (addr : Addr) : Encoding.Statement (.sbcAbs addr) := ⟨rfl, ⟨_, rfl, rfl, rfl⟩, rfl⟩
theorem Encoding.sbcAbsX (addr : Addr) : Encoding.Statement (.sbcAbsX addr) := ⟨rfl, ⟨_, rfl, rfl, rfl⟩, rfl⟩
theorem Encoding.sbcAbsY (addr : Addr) : Encoding.Statement (.sbcAbsY addr) := ⟨rfl, ⟨_, rfl, rfl, rfl⟩, rfl⟩
theorem Encoding.sbcIndX (zp8 : Byte) : Encoding.Statement (.sbcIndX zp8) := ⟨rfl, ⟨_, rfl, rfl, rfl⟩, rfl⟩
theorem Encoding.sbcIndY (zp8 : Byte) : Encoding.Statement (.sbcIndY zp8) := ⟨rfl, ⟨_, rfl, rfl, rfl⟩, rfl⟩
theorem Encoding.sec : Encoding.Statement .sec := ⟨rfl, ⟨_, rfl, rfl, rfl⟩, rfl⟩
theorem Encoding.sed : Encoding.Statement .sed := ⟨rfl, ⟨_, rfl, rfl, rfl⟩, rfl⟩
theorem Encoding.sei : Encoding.Statement .sei := ⟨rfl, ⟨_, rfl, rfl, rfl⟩, rfl⟩
theorem Encoding.staZp (zp8 : Byte) : Encoding.Statement (.staZp zp8) := ⟨rfl, ⟨_, rfl, rfl, rfl⟩, rfl⟩
theorem Encoding.staZpX (zp8 : Byte) : Encoding.Statement (.staZpX zp8) := ⟨rfl, ⟨_, rfl, rfl, rfl⟩, rfl⟩
theorem Encoding.staAbs (addr : Addr) : Encoding.Statement (.staAbs addr) := ⟨rfl, ⟨_, rfl, rfl, rfl⟩, rfl⟩
theorem Encoding.staAbsX (addr : Addr) : Encoding.Statement (.staAbsX addr) := ⟨rfl, ⟨_, rfl, rfl, rfl⟩, rfl⟩
theorem Encoding.staAbsY (addr : Addr) : Encoding.Statement (.staAbsY addr) := ⟨rfl, ⟨_, rfl, rfl, rfl⟩, rfl⟩
theorem Encoding.staIndX (zp8 : Byte) : Encoding.Statement (.staIndX zp8) := ⟨rfl, ⟨_, rfl, rfl, rfl⟩, rfl⟩
theorem Encoding.staIndY (zp8 : Byte) : Encoding.Statement (.staIndY zp8) := ⟨rfl, ⟨_, rfl, rfl, rfl⟩, rfl⟩
theorem Encoding.stxZp (zp8 : Byte) : Encoding.Statement (.stxZp zp8) := ⟨rfl, ⟨_, rfl, rfl, rfl⟩, rfl⟩
theorem Encoding.stxZpY (zp8 : Byte) : Encoding.Statement (.stxZpY zp8) := ⟨rfl, ⟨_, rfl, rfl, rfl⟩, rfl⟩
theorem Encoding.stxAbs (addr : Addr) : Encoding.Statement (.stxAbs addr) := ⟨rfl, ⟨_, rfl, rfl, rfl⟩, rfl⟩
theorem Encoding.styZp (zp8 : Byte) : Encoding.Statement (.styZp zp8) := ⟨rfl, ⟨_, rfl, rfl, rfl⟩, rfl⟩
theorem Encoding.styZpX (zp8 : Byte) : Encoding.Statement (.styZpX zp8) := ⟨rfl, ⟨_, rfl, rfl, rfl⟩, rfl⟩
theorem Encoding.styAbs (addr : Addr) : Encoding.Statement (.styAbs addr) := ⟨rfl, ⟨_, rfl, rfl, rfl⟩, rfl⟩
theorem Encoding.tax : Encoding.Statement .tax := ⟨rfl, ⟨_, rfl, rfl, rfl⟩, rfl⟩
theorem Encoding.tay : Encoding.Statement .tay := ⟨rfl, ⟨_, rfl, rfl, rfl⟩, rfl⟩
theorem Encoding.tsx : Encoding.Statement .tsx := ⟨rfl, ⟨_, rfl, rfl, rfl⟩, rfl⟩
theorem Encoding.txa : Encoding.Statement .txa := ⟨rfl, ⟨_, rfl, rfl, rfl⟩, rfl⟩
theorem Encoding.txs : Encoding.Statement .txs := ⟨rfl, ⟨_, rfl, rfl, rfl⟩, rfl⟩
theorem Encoding.tya : Encoding.Statement .tya := ⟨rfl, ⟨_, rfl, rfl, rfl⟩, rfl⟩

end Sys2Proof.Laws
end

