-- ==== Sys2Proof/Laws/Decode.lean ====
section
/-! SUPPORT. The decoder's two forms agree: on a list that holds the bytes a format needs, `decode` reads what
`decodeBytes` does (30_encoding.md R83). -/

namespace Sys2Proof

/-- With two bytes behind the opcode, the list decoder never runs out of bytes and finds the instruction that
`decodeBytes` finds, or names the opcode as undefined. -/
theorem decode_cons_cons (op b1 b2 : Byte) (rest : List Byte) :
    (decodeBytes op b1 b2 = none ∧ decode (op :: b1 :: b2 :: rest) = .undefinedOpcode op) ∨
    (∃ i rest', decodeBytes op b1 b2 = some i ∧ decode (op :: b1 :: b2 :: rest) = .instr i rest') := by
  simp only [decodeBytes, decode]
  cases descriptor op with
  | none => exact .inl ⟨rfl, rfl⟩
  | some d =>
    obtain ⟨_, _, _, _, b⟩ := d
    cases b <;> exact .inr ⟨_, _, rfl, rfl⟩

end Sys2Proof
end

