-- ==== Sys2Proof/Laws/Step.lean ====
section
/-! SUPPORT. What a step can answer, and what the adders of decimal mode fix, once each, for later proofs to cite
(40_execute_dispatch.md R101; 42_alu_flags_arith_logic.md R145, R146). -/

namespace Sys2Proof.Machine

/-- A next state of the step is a next state of the instruction at PC. -/
theorem step_next_iff {s t : State} : step s = .next t ↔ ∃ i, fetchInstr s = some i ∧ exec i s = .next t := by
  unfold step
  cases fetchInstr s with
  | none => simp
  | some i => simp

/-- With no instruction at PC the step is UndefinedOpcode (R260). -/
theorem step_of_fetch_none {s : State} (h : fetchInstr s = none) :
    step s = .fault (.undefinedOpcode s.pc (fetchOpcode s)) := by
  rw [step, h]

theorem step_of_fetch_some {s : State} {i : Instr} (h : fetchInstr s = some i) : step s = exec i s := by
  rw [step, h]

/-- On valid digits the result and the carry of decimal arithmetic are fixed; the other three outputs are free. -/
theorem decimalArith_of_valid {op : DecimalOp} {a m : Byte} {cin : Bool} (ha : validBcd a = true)
    (hm : validBcd m = true) :
    (decimalArith op a m cin).r = (decimalFixed op a m cin).1 ∧
    (decimalArith op a m cin).c = (decimalFixed op a m cin).2 := by
  simp [decimalArith, ha, hm]

end Sys2Proof.Machine
end

