-- ==== Sys2Proof/Laws/Stores.lean ====
section
/-! SUPPORT. The two tables of what an instruction stores agree, and what `byteAfter` reads (20_memory.md R52, R65). -/

namespace Sys2Proof.Machine

/-- `storedCells` gives bytes to exactly the addresses of `storedAddrs`, in the same order. -/
theorem storedCells_addrs (i : Instr) (s : State) : (storedCells i s).map Prod.fst = storedAddrs i s := by
  cases i <;> rfl

/-- Outside the listed addresses the byte is that of the state. -/
theorem byteOver_of_not_mem {cells : List (Addr × Byte)} (s : State) {addr : Addr}
    (h : addr ∉ cells.map Prod.fst) : byteOver cells s addr = s.read addr := by
  induction cells with
  | nil => rfl
  | cons c rest ih =>
    simp only [List.map_cons, List.mem_cons, not_or] at h
    simp only [byteOver, if_neg h.1, ih h.2]

/-- Outside the stored bytes nothing changes. -/
theorem byteAfter_of_not_stored {i : Instr} {s : State} {addr : Addr} (h : addr ∉ storedAddrs i s) :
    byteAfter i s addr = s.read addr :=
  byteOver_of_not_mem s (storedCells_addrs i s ▸ h)

end Sys2Proof.Machine
end

