-- ==== Sys2Proof/Tests/Slice0.lean ====
section
/-! SUPPORT. The model's own tests. Every expected value comes from spec/: the vectors of 95_test_vectors.md by their
number (V, X, Z), the encodings of 30_encoding.md R87 and R88, and, for the witnesses at the end, states that meet
the hypotheses of the obligations. The helpers build small states. -/

namespace Sys2Proof.Tests

open Sys2Proof Sys2Proof.Machine

/-- The flags of a status byte (R28). -/
def flags (b : Byte) : Status :=
  ⟨b.getLsbD 7, b.getLsbD 6, b.getLsbD 5, b.getLsbD 4, b.getLsbD 3, b.getLsbD 2, b.getLsbD 1, b.getLsbD 0⟩

/-- A state: A, X, Y, S, PC, P as a byte, and the memory bytes that are not 0x00. -/
def st (a x y sp : Byte) (pc : Addr) (p : Byte) (m : Memory) : State := ⟨a, x, y, sp, pc, flags p, m⟩

/-- The step answers the state `t` and charges `c` cycles. -/
def gives (s t : State) (c : Nat) : Bool :=
  match step s with
  | .next u => decide (u = t) && decide (stepCycles s = c)
  | _ => false

/-- The step is UndefinedOpcode with this address and byte. -/
def stops (s : State) (addr : Addr) (byte : Byte) : Bool :=
  match step s with
  | .fault f => decide (f = .undefinedOpcode addr byte) && decide (stepCycles s = 0)
  | _ => false

/-- In decimal mode only A, C, PC and the other registers are fixed (R145); N, V, Z are free. -/
def givesDecimal (s t : State) (c : Nat) : Bool :=
  match step s with
  | .next u =>
    decide (u.a = t.a) && decide (u.p.c = t.p.c) && decide (u.p.d = t.p.d) && decide (u.pc = t.pc) &&
      decide (u.mem = t.mem) && decide (stepCycles s = c)
  | _ => false

/-- The default instance of R146 gives these N, V, Z, C beside the result. -/
def defaultGives (op : DecimalOp) (a m : Byte) (cin : Bool) (r p : Byte) : Bool :=
  decide (decimalDefault op a m cin =
    ⟨r, (flags p).c, (flags p).n, (flags p).v, (flags p).z⟩)

/-! ### The smoke test of the well-formedness check: cells that R88 leaves empty. No operand value is refused (U13),
and every constructor of `Instr` has its cell, so the ill-formed terms are pairs of mnemonic and mode. -/

theorem test_refuses_store_immediate : formExists .sta .immediate = false := by decide
theorem test_refuses_bit_immediate : formExists .bit .immediate = false := by decide
theorem test_refuses_inc_accumulator : formExists .inc .accumulator = false := by decide
theorem test_refuses_jump_indexed : formExists .jmp .absoluteX = false := by decide
theorem test_refuses_ldx_absoluteX : formExists .ldx .absoluteX = false := by decide
theorem test_refuses_sty_absoluteX : formExists .sty .absoluteX = false := by decide
theorem test_refuses_lda_zeroPageY : formExists .lda .zeroPageY = false := by decide
theorem test_refuses_branch_absolute : formExists .bcc .absolute = false := by decide
theorem test_admits_its_cells :
    WellFormed (.stxZpY 0xFF) = true ∧ WellFormed (.ldxZpY 0x00) = true ∧ WellFormed (.jmpInd 0xFFFF) = true := by decide

/-! ### Every constructor's decoding, from the bytes of R88 and R82: opcode, then operand, low byte first. -/

theorem test_decode_arith :
    decode [0x69, 0x34] = .instr (.adcImm 0x34) [] ∧ decode [0x65, 0x34] = .instr (.adcZp 0x34) [] ∧
    decode [0x75, 0x34] = .instr (.adcZpX 0x34) [] ∧ decode [0x6D, 0x34, 0x12] = .instr (.adcAbs 0x1234) [] ∧
    decode [0x7D, 0x34, 0x12] = .instr (.adcAbsX 0x1234) [] ∧ decode [0x79, 0x34, 0x12] = .instr (.adcAbsY 0x1234) [] ∧
    decode [0x61, 0x34] = .instr (.adcIndX 0x34) [] ∧ decode [0x71, 0x34] = .instr (.adcIndY 0x34) [] ∧
    decode [0xE9, 0x34] = .instr (.sbcImm 0x34) [] ∧ decode [0xE5, 0x34] = .instr (.sbcZp 0x34) [] ∧
    decode [0xF5, 0x34] = .instr (.sbcZpX 0x34) [] ∧ decode [0xED, 0x34, 0x12] = .instr (.sbcAbs 0x1234) [] ∧
    decode [0xFD, 0x34, 0x12] = .instr (.sbcAbsX 0x1234) [] ∧ decode [0xF9, 0x34, 0x12] = .instr (.sbcAbsY 0x1234) [] ∧
    decode [0xE1, 0x34] = .instr (.sbcIndX 0x34) [] ∧ decode [0xF1, 0x34] = .instr (.sbcIndY 0x34) [] := by decide

theorem test_decode_logic :
    decode [0x29, 0x34] = .instr (.andImm 0x34) [] ∧ decode [0x25, 0x34] = .instr (.andZp 0x34) [] ∧
    decode [0x35, 0x34] = .instr (.andZpX 0x34) [] ∧ decode [0x2D, 0x34, 0x12] = .instr (.andAbs 0x1234) [] ∧
    decode [0x3D, 0x34, 0x12] = .instr (.andAbsX 0x1234) [] ∧ decode [0x39, 0x34, 0x12] = .instr (.andAbsY 0x1234) [] ∧
    decode [0x21, 0x34] = .instr (.andIndX 0x34) [] ∧ decode [0x31, 0x34] = .instr (.andIndY 0x34) [] ∧
    decode [0x49, 0x34] = .instr (.eorImm 0x34) [] ∧ decode [0x45, 0x34] = .instr (.eorZp 0x34) [] ∧
    decode [0x55, 0x34] = .instr (.eorZpX 0x34) [] ∧ decode [0x4D, 0x34, 0x12] = .instr (.eorAbs 0x1234) [] ∧
    decode [0x5D, 0x34, 0x12] = .instr (.eorAbsX 0x1234) [] ∧ decode [0x59, 0x34, 0x12] = .instr (.eorAbsY 0x1234) [] ∧
    decode [0x41, 0x34] = .instr (.eorIndX 0x34) [] ∧ decode [0x51, 0x34] = .instr (.eorIndY 0x34) [] ∧
    decode [0x09, 0x34] = .instr (.oraImm 0x34) [] ∧ decode [0x05, 0x34] = .instr (.oraZp 0x34) [] ∧
    decode [0x15, 0x34] = .instr (.oraZpX 0x34) [] ∧ decode [0x0D, 0x34, 0x12] = .instr (.oraAbs 0x1234) [] ∧
    decode [0x1D, 0x34, 0x12] = .instr (.oraAbsX 0x1234) [] ∧ decode [0x19, 0x34, 0x12] = .instr (.oraAbsY 0x1234) [] ∧
    decode [0x01, 0x34] = .instr (.oraIndX 0x34) [] ∧ decode [0x11, 0x34] = .instr (.oraIndY 0x34) [] := by decide

theorem test_decode_compare :
    decode [0x24, 0x34] = .instr (.bitZp 0x34) [] ∧ decode [0x2C, 0x34, 0x12] = .instr (.bitAbs 0x1234) [] ∧
    decode [0xC9, 0x34] = .instr (.cmpImm 0x34) [] ∧ decode [0xC5, 0x34] = .instr (.cmpZp 0x34) [] ∧
    decode [0xD5, 0x34] = .instr (.cmpZpX 0x34) [] ∧ decode [0xCD, 0x34, 0x12] = .instr (.cmpAbs 0x1234) [] ∧
    decode [0xDD, 0x34, 0x12] = .instr (.cmpAbsX 0x1234) [] ∧ decode [0xD9, 0x34, 0x12] = .instr (.cmpAbsY 0x1234) [] ∧
    decode [0xC1, 0x34] = .instr (.cmpIndX 0x34) [] ∧ decode [0xD1, 0x34] = .instr (.cmpIndY 0x34) [] ∧
    decode [0xE0, 0x34] = .instr (.cpxImm 0x34) [] ∧ decode [0xE4, 0x34] = .instr (.cpxZp 0x34) [] ∧
    decode [0xEC, 0x34, 0x12] = .instr (.cpxAbs 0x1234) [] ∧ decode [0xC0, 0x34] = .instr (.cpyImm 0x34) [] ∧
    decode [0xC4, 0x34] = .instr (.cpyZp 0x34) [] ∧ decode [0xCC, 0x34, 0x12] = .instr (.cpyAbs 0x1234) [] := by decide

theorem test_decode_load :
    decode [0xA9, 0x34] = .instr (.ldaImm 0x34) [] ∧ decode [0xA5, 0x34] = .instr (.ldaZp 0x34) [] ∧
    decode [0xB5, 0x34] = .instr (.ldaZpX 0x34) [] ∧ decode [0xAD, 0x34, 0x12] = .instr (.ldaAbs 0x1234) [] ∧
    decode [0xBD, 0x34, 0x12] = .instr (.ldaAbsX 0x1234) [] ∧ decode [0xB9, 0x34, 0x12] = .instr (.ldaAbsY 0x1234) [] ∧
    decode [0xA1, 0x34] = .instr (.ldaIndX 0x34) [] ∧ decode [0xB1, 0x34] = .instr (.ldaIndY 0x34) [] ∧
    decode [0xA2, 0x34] = .instr (.ldxImm 0x34) [] ∧ decode [0xA6, 0x34] = .instr (.ldxZp 0x34) [] ∧
    decode [0xB6, 0x34] = .instr (.ldxZpY 0x34) [] ∧ decode [0xAE, 0x34, 0x12] = .instr (.ldxAbs 0x1234) [] ∧
    decode [0xBE, 0x34, 0x12] = .instr (.ldxAbsY 0x1234) [] ∧ decode [0xA0, 0x34] = .instr (.ldyImm 0x34) [] ∧
    decode [0xA4, 0x34] = .instr (.ldyZp 0x34) [] ∧ decode [0xB4, 0x34] = .instr (.ldyZpX 0x34) [] ∧
    decode [0xAC, 0x34, 0x12] = .instr (.ldyAbs 0x1234) [] ∧ decode [0xBC, 0x34, 0x12] = .instr (.ldyAbsX 0x1234) [] := by decide

theorem test_decode_store :
    decode [0x85, 0x34] = .instr (.staZp 0x34) [] ∧ decode [0x95, 0x34] = .instr (.staZpX 0x34) [] ∧
    decode [0x8D, 0x34, 0x12] = .instr (.staAbs 0x1234) [] ∧ decode [0x9D, 0x34, 0x12] = .instr (.staAbsX 0x1234) [] ∧
    decode [0x99, 0x34, 0x12] = .instr (.staAbsY 0x1234) [] ∧ decode [0x81, 0x34] = .instr (.staIndX 0x34) [] ∧
    decode [0x91, 0x34] = .instr (.staIndY 0x34) [] ∧ decode [0x86, 0x34] = .instr (.stxZp 0x34) [] ∧
    decode [0x96, 0x34] = .instr (.stxZpY 0x34) [] ∧ decode [0x8E, 0x34, 0x12] = .instr (.stxAbs 0x1234) [] ∧
    decode [0x84, 0x34] = .instr (.styZp 0x34) [] ∧ decode [0x94, 0x34] = .instr (.styZpX 0x34) [] ∧
    decode [0x8C, 0x34, 0x12] = .instr (.styAbs 0x1234) [] := by decide

theorem test_decode_transfer :
    decode [0xAA] = .instr .tax [] ∧ decode [0xA8] = .instr .tay [] ∧
    decode [0xBA] = .instr .tsx [] ∧ decode [0x8A] = .instr .txa [] ∧
    decode [0x9A] = .instr .txs [] ∧ decode [0x98] = .instr .tya [] := by decide

theorem test_decode_incdec :
    decode [0xC6, 0x34] = .instr (.decZp 0x34) [] ∧ decode [0xD6, 0x34] = .instr (.decZpX 0x34) [] ∧
    decode [0xCE, 0x34, 0x12] = .instr (.decAbs 0x1234) [] ∧ decode [0xDE, 0x34, 0x12] = .instr (.decAbsX 0x1234) [] ∧
    decode [0xCA] = .instr .dex [] ∧ decode [0x88] = .instr .dey [] ∧
    decode [0xE6, 0x34] = .instr (.incZp 0x34) [] ∧ decode [0xF6, 0x34] = .instr (.incZpX 0x34) [] ∧
    decode [0xEE, 0x34, 0x12] = .instr (.incAbs 0x1234) [] ∧ decode [0xFE, 0x34, 0x12] = .instr (.incAbsX 0x1234) [] ∧
    decode [0xE8] = .instr .inx [] ∧ decode [0xC8] = .instr .iny [] := by decide

theorem test_decode_shift_left :
    decode [0x0A] = .instr .aslAcc [] ∧ decode [0x06, 0x34] = .instr (.aslZp 0x34) [] ∧
    decode [0x16, 0x34] = .instr (.aslZpX 0x34) [] ∧ decode [0x0E, 0x34, 0x12] = .instr (.aslAbs 0x1234) [] ∧
    decode [0x1E, 0x34, 0x12] = .instr (.aslAbsX 0x1234) [] ∧ decode [0x2A] = .instr .rolAcc [] ∧
    decode [0x26, 0x34] = .instr (.rolZp 0x34) [] ∧ decode [0x36, 0x34] = .instr (.rolZpX 0x34) [] ∧
    decode [0x2E, 0x34, 0x12] = .instr (.rolAbs 0x1234) [] ∧ decode [0x3E, 0x34, 0x12] = .instr (.rolAbsX 0x1234) [] := by decide

theorem test_decode_shift_right :
    decode [0x4A] = .instr .lsrAcc [] ∧ decode [0x46, 0x34] = .instr (.lsrZp 0x34) [] ∧
    decode [0x56, 0x34] = .instr (.lsrZpX 0x34) [] ∧ decode [0x4E, 0x34, 0x12] = .instr (.lsrAbs 0x1234) [] ∧
    decode [0x5E, 0x34, 0x12] = .instr (.lsrAbsX 0x1234) [] ∧ decode [0x6A] = .instr .rorAcc [] ∧
    decode [0x66, 0x34] = .instr (.rorZp 0x34) [] ∧ decode [0x76, 0x34] = .instr (.rorZpX 0x34) [] ∧
    decode [0x6E, 0x34, 0x12] = .instr (.rorAbs 0x1234) [] ∧ decode [0x7E, 0x34, 0x12] = .instr (.rorAbsX 0x1234) [] := by decide

theorem test_decode_jump :
    decode [0x4C, 0x34, 0x12] = .instr (.jmpAbs 0x1234) [] ∧ decode [0x6C, 0x34, 0x12] = .instr (.jmpInd 0x1234) [] ∧
    decode [0x20, 0x34, 0x12] = .instr (.jsr 0x1234) [] ∧ decode [0x60] = .instr .rts [] := by decide

theorem test_decode_branch :
    decode [0x90, 0x34] = .instr (.bcc 0x34) [] ∧ decode [0xB0, 0x34] = .instr (.bcs 0x34) [] ∧
    decode [0xF0, 0x34] = .instr (.beq 0x34) [] ∧ decode [0x30, 0x34] = .instr (.bmi 0x34) [] ∧
    decode [0xD0, 0x34] = .instr (.bne 0x34) [] ∧ decode [0x10, 0x34] = .instr (.bpl 0x34) [] ∧
    decode [0x50, 0x34] = .instr (.bvc 0x34) [] ∧ decode [0x70, 0x34] = .instr (.bvs 0x34) [] := by decide

theorem test_decode_stack :
    decode [0x48] = .instr .pha [] ∧ decode [0x08] = .instr .php [] ∧
    decode [0x68] = .instr .pla [] ∧ decode [0x28] = .instr .plp [] := by decide

theorem test_decode_flag :
    decode [0x18] = .instr .clc [] ∧ decode [0xD8] = .instr .cld [] ∧
    decode [0x58] = .instr .cli [] ∧ decode [0xB8] = .instr .clv [] ∧
    decode [0xEA] = .instr .nop [] ∧ decode [0x38] = .instr .sec [] ∧
    decode [0xF8] = .instr .sed [] ∧ decode [0x78] = .instr .sei [] := by decide

theorem test_decode_trap :
    decode [0x00] = .instr .brk [] ∧ decode [0x40] = .instr .rti [] := by decide

theorem test_decode_names_what_is_no_instruction :
    decode [0xEB, 0x01] = .undefinedOpcode 0xEB ∧ decode [0x02] = .undefinedOpcode 0x02 ∧
    decode [0xFF, 0x34, 0x12] = .undefinedOpcode 0xFF ∧ decode [] = .truncated ∧
    decode [0xA9] = .truncated ∧ decode [0x4C, 0x34] = .truncated := by decide

theorem test_decode_leaves_the_rest : decode [0x00, 0xEA] = .instr .brk [0xEA] := by decide

theorem test_decodeTableWord :
    decodeTableWord 8 0xEA = some .nop ∧ decodeTableWord 8 0xA9 = some (.ldaImm 0) ∧
    decodeTableWord 24 0x12346C = some (.jmpInd 0x1234) ∧ decodeTableWord 8 0xFF02 = none := by decide

/-! ### One step from each of the spec's vectors: at most two an instruction. -/

/-- V1: `LDA #$00`. -/
theorem test_V1_ldaImm :
    gives (st 0x55 0x00 0x00 0xFF 0x8000 0x00 [(0x8000, 0xA9)])
      (st 0x00 0x00 0x00 0xFF 0x8002 0x02 [(0x8000, 0xA9)]) 2 = true := by decide

/-- V8: `LDA $FFFF,X`. -/
theorem test_V8_ldaAbsX :
    gives (st 0x00 0x01 0x00 0xFF 0x8000 0x00 [(0x0000, 0x9A), (0x8000, 0xBD), (0x8001, 0xFF), (0x8002, 0xFF)])
      (st 0x9A 0x01 0x00 0xFF 0x8003 0x80 [(0x0000, 0x9A), (0x8000, 0xBD), (0x8001, 0xFF), (0x8002, 0xFF)]) 5 = true := by decide

/-- V10: `LDA ($10,X)`. -/
theorem test_V10_ldaIndX :
    gives (st 0x00 0x13 0x00 0xFF 0x8000 0x00 [(0x0023, 0x12), (0x0024, 0x83), (0x8000, 0xA1), (0x8001, 0x10), (0x8312, 0x15)])
      (st 0x15 0x13 0x00 0xFF 0x8002 0x00 [(0x0023, 0x12), (0x0024, 0x83), (0x8000, 0xA1), (0x8001, 0x10), (0x8312, 0x15)]) 6 = true := by decide

/-- V11: `LDA ($F0,X)`. -/
theorem test_V11_ldaIndX :
    gives (st 0x00 0x0F 0x00 0xFF 0x8000 0x00 [(0x0000, 0x12), (0x00FF, 0x34), (0x0100, 0x99), (0x1234, 0x77), (0x8000, 0xA1), (0x8001, 0xF0), (0x9934, 0x66)])
      (st 0x77 0x0F 0x00 0xFF 0x8002 0x00 [(0x0000, 0x12), (0x00FF, 0x34), (0x0100, 0x99), (0x1234, 0x77), (0x8000, 0xA1), (0x8001, 0xF0), (0x9934, 0x66)]) 6 = true := by decide

/-- V13: `LDA ($20),Y`. -/
theorem test_V13_ldaIndY :
    gives (st 0x00 0x00 0x10 0xFF 0x8000 0x00 [(0x0021, 0x30), (0x3010, 0x42), (0x8000, 0xB1), (0x8001, 0x20)])
      (st 0x42 0x00 0x10 0xFF 0x8002 0x00 [(0x0021, 0x30), (0x3010, 0x42), (0x8000, 0xB1), (0x8001, 0x20)]) 5 = true := by decide

/-- V15: `LDA ($FF),Y`. -/
theorem test_V15_ldaIndY :
    gives (st 0x00 0x00 0x01 0xFF 0x8000 0x00 [(0x0000, 0x40), (0x0100, 0x50), (0x4001, 0x44), (0x5001, 0x55), (0x8000, 0xB1), (0x8001, 0xFF)])
      (st 0x44 0x00 0x01 0xFF 0x8002 0x00 [(0x0000, 0x40), (0x0100, 0x50), (0x4001, 0x44), (0x5001, 0x55), (0x8000, 0xB1), (0x8001, 0xFF)]) 5 = true := by decide

/-- V3: `LDA $F0,X`. -/
theorem test_V3_ldaZpX :
    gives (st 0x00 0x20 0x00 0xFF 0x8000 0x00 [(0x0010, 0x33), (0x0110, 0x44), (0x8000, 0xB5), (0x8001, 0xF0)])
      (st 0x33 0x20 0x00 0xFF 0x8002 0x00 [(0x0010, 0x33), (0x0110, 0x44), (0x8000, 0xB5), (0x8001, 0xF0)]) 4 = true := by decide

/-- V9: `LDA $12FF,Y`. -/
theorem test_V9_ldaAbsY :
    gives (st 0x01 0x00 0x01 0xFF 0x8000 0x00 [(0x8000, 0xB9), (0x8001, 0xFF), (0x8002, 0x12)])
      (st 0x00 0x00 0x01 0xFF 0x8003 0x02 [(0x8000, 0xB9), (0x8001, 0xFF), (0x8002, 0x12)]) 5 = true := by decide

/-- V22: `LDA $0200`. -/
theorem test_V22_ldaAbs :
    gives (st 0x00 0x00 0x00 0xFF 0xFFFE 0x00 [(0x0000, 0x02), (0x0200, 0xE1), (0xFFFE, 0xAD)])
      (st 0xE1 0x00 0x00 0xFF 0x0001 0x80 [(0x0000, 0x02), (0x0200, 0xE1), (0xFFFE, 0xAD)]) 4 = true := by decide

/-- V4: `LDX $F0,Y`. -/
theorem test_V4_ldxZpY :
    gives (st 0x00 0x00 0x0F 0xFF 0x8000 0x00 [(0x00FF, 0x7F), (0x8000, 0xB6), (0x8001, 0xF0)])
      (st 0x00 0x7F 0x0F 0xFF 0x8002 0x00 [(0x00FF, 0x7F), (0x8000, 0xB6), (0x8001, 0xF0)]) 4 = true := by decide

/-- V73: `LDX $1200,Y`. -/
theorem test_V73_ldxAbsY :
    gives (st 0x00 0x00 0xFF 0xFF 0x8000 0x00 [(0x12FF, 0x80), (0x8000, 0xBE), (0x8002, 0x12)])
      (st 0x00 0x80 0xFF 0xFF 0x8003 0x80 [(0x12FF, 0x80), (0x8000, 0xBE), (0x8002, 0x12)]) 4 = true := by decide

/-- V71: `LDX #$12`. -/
theorem test_V71_ldxImm :
    gives (st 0x00 0x00 0x00 0xFF 0x8000 0x00 [(0x8000, 0xA2), (0x8001, 0x12)])
      (st 0x00 0x12 0x00 0xFF 0x8002 0x00 [(0x8000, 0xA2), (0x8001, 0x12)]) 2 = true := by decide

/-- V72: `LDX #$00`. -/
theorem test_V72_ldxImm :
    gives (st 0x00 0x44 0x00 0xFF 0x8000 0x81 [(0x8000, 0xA2)])
      (st 0x00 0x00 0x00 0xFF 0x8002 0x03 [(0x8000, 0xA2)]) 2 = true := by decide

/-- V74: `LDY #$80`. -/
theorem test_V74_ldyImm :
    gives (st 0x00 0x00 0x00 0xFF 0x8000 0x00 [(0x8000, 0xA0), (0x8001, 0x80)])
      (st 0x00 0x00 0x80 0xFF 0x8002 0x80 [(0x8000, 0xA0), (0x8001, 0x80)]) 2 = true := by decide

/-- V75: `LDY $12FF,X`. -/
theorem test_V75_ldyAbsX :
    gives (st 0x00 0x02 0x00 0xFF 0x8000 0x00 [(0x1301, 0x01), (0x8000, 0xBC), (0x8001, 0xFF), (0x8002, 0x12)])
      (st 0x00 0x02 0x01 0xFF 0x8003 0x00 [(0x1301, 0x01), (0x8000, 0xBC), (0x8001, 0xFF), (0x8002, 0x12)]) 5 = true := by decide

/-- V76: `LDY $F0,X`. -/
theorem test_V76_ldyZpX :
    gives (st 0x00 0x11 0x09 0xFF 0x8000 0x00 [(0x8000, 0xB4), (0x8001, 0xF0)])
      (st 0x00 0x11 0x00 0xFF 0x8002 0x02 [(0x8000, 0xB4), (0x8001, 0xF0)]) 4 = true := by decide

/-- V17: `STA $12F0,X`. -/
theorem test_V17_staAbsX :
    gives (st 0xAB 0x01 0x00 0xFF 0x8000 0x00 [(0x8000, 0x9D), (0x8001, 0xF0), (0x8002, 0x12)])
      (st 0xAB 0x01 0x00 0xFF 0x8003 0x00 [(0x12F1, 0xAB), (0x8000, 0x9D), (0x8001, 0xF0), (0x8002, 0x12)]) 5 = true := by decide

/-- V18: `STA $12F0,X`. -/
theorem test_V18_staAbsX :
    gives (st 0xAB 0x20 0x00 0xFF 0x8000 0x00 [(0x8000, 0x9D), (0x8001, 0xF0), (0x8002, 0x12)])
      (st 0xAB 0x20 0x00 0xFF 0x8003 0x00 [(0x1310, 0xAB), (0x8000, 0x9D), (0x8001, 0xF0), (0x8002, 0x12)]) 5 = true := by decide

/-- V19: `STA ($20),Y`. -/
theorem test_V19_staIndY :
    gives (st 0xCD 0x00 0x01 0xFF 0x8000 0x00 [(0x0021, 0x30), (0x8000, 0x91), (0x8001, 0x20)])
      (st 0xCD 0x00 0x01 0xFF 0x8002 0x00 [(0x0021, 0x30), (0x3001, 0xCD), (0x8000, 0x91), (0x8001, 0x20)]) 6 = true := by decide

/-- V20: `STA ($10,X)`. -/
theorem test_V20_staIndX :
    gives (st 0xEE 0x02 0x00 0xFF 0x8000 0x00 [(0x0012, 0x78), (0x0013, 0x56), (0x8000, 0x81), (0x8001, 0x10)])
      (st 0xEE 0x02 0x00 0xFF 0x8002 0x00 [(0x0012, 0x78), (0x0013, 0x56), (0x5678, 0xEE), (0x8000, 0x81), (0x8001, 0x10)]) 6 = true := by decide

/-- V77: `STA $10`. -/
theorem test_V77_staZp :
    gives (st 0x80 0x00 0x00 0xFF 0x8000 0x02 [(0x8000, 0x85), (0x8001, 0x10)])
      (st 0x80 0x00 0x00 0xFF 0x8002 0x02 [(0x0010, 0x80), (0x8000, 0x85), (0x8001, 0x10)]) 3 = true := by decide

/-- V78: `STA $F0,X`. -/
theorem test_V78_staZpX :
    gives (st 0x5A 0x20 0x00 0xFF 0x8000 0x00 [(0x8000, 0x95), (0x8001, 0xF0)])
      (st 0x5A 0x20 0x00 0xFF 0x8002 0x00 [(0x0010, 0x5A), (0x8000, 0x95), (0x8001, 0xF0)]) 4 = true := by decide

/-- V80: `STA $01FF`. -/
theorem test_V80_staAbs :
    gives (st 0x5C 0x00 0x00 0xFF 0x8000 0x00 [(0x8000, 0x8D), (0x8001, 0xFF), (0x8002, 0x01)])
      (st 0x5C 0x00 0x00 0xFF 0x8003 0x00 [(0x01FF, 0x5C), (0x8000, 0x8D), (0x8001, 0xFF), (0x8002, 0x01)]) 4 = true := by decide

/-- V82: `STX $F8,Y`. -/
theorem test_V82_stxZpY :
    gives (st 0x00 0x08 0x10 0xFF 0x8000 0x00 [(0x8000, 0x96), (0x8001, 0xF8)])
      (st 0x00 0x08 0x10 0xFF 0x8002 0x00 [(0x0008, 0x08), (0x8000, 0x96), (0x8001, 0xF8)]) 4 = true := by decide

/-- V83: `STX $1234`. -/
theorem test_V83_stxAbs :
    gives (st 0x00 0x09 0x00 0xFF 0x8000 0x00 [(0x8000, 0x8E), (0x8001, 0x34), (0x8002, 0x12)])
      (st 0x00 0x09 0x00 0xFF 0x8003 0x00 [(0x1234, 0x09), (0x8000, 0x8E), (0x8001, 0x34), (0x8002, 0x12)]) 4 = true := by decide

/-- V84: `STY $F0,X`. -/
theorem test_V84_styZpX :
    gives (st 0x00 0x20 0x09 0xFF 0x8000 0x00 [(0x8000, 0x94), (0x8001, 0xF0)])
      (st 0x00 0x20 0x09 0xFF 0x8002 0x00 [(0x0010, 0x09), (0x8000, 0x94), (0x8001, 0xF0)]) 4 = true := by decide

/-- V85: `STY $1234`. -/
theorem test_V85_styAbs :
    gives (st 0x00 0x00 0x0A 0xFF 0x8000 0x00 [(0x8000, 0x8C), (0x8001, 0x34), (0x8002, 0x12)])
      (st 0x00 0x00 0x0A 0xFF 0x8003 0x00 [(0x1234, 0x0A), (0x8000, 0x8C), (0x8001, 0x34), (0x8002, 0x12)]) 4 = true := by decide

/-- V86: `TAX`. -/
theorem test_V86_tax :
    gives (st 0x00 0x55 0x00 0xFF 0x8000 0x00 [(0x8000, 0xAA)])
      (st 0x00 0x00 0x00 0xFF 0x8001 0x02 [(0x8000, 0xAA)]) 2 = true := by decide

/-- V87: `TAY`. -/
theorem test_V87_tay :
    gives (st 0x90 0x00 0x00 0xFF 0x8000 0x00 [(0x8000, 0xA8)])
      (st 0x90 0x00 0x90 0xFF 0x8001 0x80 [(0x8000, 0xA8)]) 2 = true := by decide

/-- V88: `TXA`. -/
theorem test_V88_txa :
    gives (st 0xFF 0x7F 0x00 0xFF 0x8000 0x82 [(0x8000, 0x8A)])
      (st 0x7F 0x7F 0x00 0xFF 0x8001 0x00 [(0x8000, 0x8A)]) 2 = true := by decide

/-- V89: `TYA`. -/
theorem test_V89_tya :
    gives (st 0x00 0x00 0xFF 0xFF 0x8000 0x00 [(0x8000, 0x98)])
      (st 0xFF 0x00 0xFF 0xFF 0x8001 0x80 [(0x8000, 0x98)]) 2 = true := by decide

/-- V90: `TSX`. -/
theorem test_V90_tsx :
    gives (st 0x00 0x00 0x00 0xFD 0x8000 0x00 [(0x8000, 0xBA)])
      (st 0x00 0xFD 0x00 0xFD 0x8001 0x80 [(0x8000, 0xBA)]) 2 = true := by decide

/-- V91: `TSX`. -/
theorem test_V91_tsx :
    gives (st 0x00 0x01 0x00 0x00 0x8000 0x00 [(0x8000, 0xBA)])
      (st 0x00 0x00 0x00 0x00 0x8001 0x02 [(0x8000, 0xBA)]) 2 = true := by decide

/-- V92: `TXS`. -/
theorem test_V92_txs :
    gives (st 0x00 0x00 0x00 0x80 0x8000 0x00 [(0x8000, 0x9A)])
      (st 0x00 0x00 0x00 0x00 0x8001 0x00 [(0x8000, 0x9A)]) 2 = true := by decide

/-- V93: `TXS`. -/
theorem test_V93_txs :
    gives (st 0x00 0x80 0x00 0xFF 0x8000 0x02 [(0x8000, 0x9A)])
      (st 0x00 0x80 0x00 0x80 0x8001 0x02 [(0x8000, 0x9A)]) 2 = true := by decide

/-- V23: `JMP ($30FF)`. -/
theorem test_V23_jmpInd :
    gives (st 0x00 0x00 0x00 0xFF 0x8000 0x00 [(0x3000, 0x50), (0x30FF, 0x80), (0x3100, 0x60), (0x8000, 0x6C), (0x8001, 0xFF), (0x8002, 0x30)])
      (st 0x00 0x00 0x00 0xFF 0x5080 0x00 [(0x3000, 0x50), (0x30FF, 0x80), (0x3100, 0x60), (0x8000, 0x6C), (0x8001, 0xFF), (0x8002, 0x30)]) 5 = true := by decide

/-- V24: `JMP ($3000)`. -/
theorem test_V24_jmpInd :
    gives (st 0x00 0x00 0x00 0xFF 0x8000 0x00 [(0x3000, 0x34), (0x3001, 0x12), (0x8000, 0x6C), (0x8002, 0x30)])
      (st 0x00 0x00 0x00 0xFF 0x1234 0x00 [(0x3000, 0x34), (0x3001, 0x12), (0x8000, 0x6C), (0x8002, 0x30)]) 5 = true := by decide

/-- V25: `ADC #$01`. -/
theorem test_V25_adcImm :
    gives (st 0x7F 0x00 0x00 0xFF 0x8000 0x00 [(0x8000, 0x69), (0x8001, 0x01)])
      (st 0x80 0x00 0x00 0xFF 0x8002 0xC0 [(0x8000, 0x69), (0x8001, 0x01)]) 2 = true := by decide

/-- V34: `ADC $12FF,X`. -/
theorem test_V34_adcAbsX :
    gives (st 0x01 0x01 0x00 0xFF 0x8000 0x01 [(0x1300, 0x02), (0x8000, 0x7D), (0x8001, 0xFF), (0x8002, 0x12)])
      (st 0x04 0x01 0x00 0xFF 0x8003 0x00 [(0x1300, 0x02), (0x8000, 0x7D), (0x8001, 0xFF), (0x8002, 0x12)]) 5 = true := by decide

/-- V38: `SBC #$01`. -/
theorem test_V38_sbcImm :
    gives (st 0x80 0x00 0x00 0xFF 0x8000 0x01 [(0x8000, 0xE9), (0x8001, 0x01)])
      (st 0x7F 0x00 0x00 0xFF 0x8002 0x41 [(0x8000, 0xE9), (0x8001, 0x01)]) 2 = true := by decide

/-- V54: `AND #$80`. -/
theorem test_V54_andImm :
    gives (st 0xFF 0x00 0x00 0xFF 0x8000 0x41 [(0x8000, 0x29), (0x8001, 0x80)])
      (st 0x80 0x00 0x00 0xFF 0x8002 0xC1 [(0x8000, 0x29), (0x8001, 0x80)]) 2 = true := by decide

/-- V53: `AND #$0F`. -/
theorem test_V53_andImm :
    gives (st 0xF0 0x00 0x00 0xFF 0x8000 0x00 [(0x8000, 0x29), (0x8001, 0x0F)])
      (st 0x00 0x00 0x00 0xFF 0x8002 0x02 [(0x8000, 0x29), (0x8001, 0x0F)]) 2 = true := by decide

/-- V55: `ORA #$00`. -/
theorem test_V55_oraImm :
    gives (st 0x00 0x00 0x00 0xFF 0x8000 0x00 [(0x8000, 0x09)])
      (st 0x00 0x00 0x00 0xFF 0x8002 0x02 [(0x8000, 0x09)]) 2 = true := by decide

/-- V56: `ORA $10,X`. -/
theorem test_V56_oraZpX :
    gives (st 0x0F 0x01 0x00 0xFF 0x8000 0x00 [(0x0011, 0xF0), (0x8000, 0x15), (0x8001, 0x10)])
      (st 0xFF 0x01 0x00 0xFF 0x8002 0x80 [(0x0011, 0xF0), (0x8000, 0x15), (0x8001, 0x10)]) 4 = true := by decide

/-- V57: `EOR #$FF`. -/
theorem test_V57_eorImm :
    gives (st 0x0F 0x00 0x00 0xFF 0x8000 0x00 [(0x8000, 0x49), (0x8001, 0xFF)])
      (st 0xF0 0x00 0x00 0xFF 0x8002 0x80 [(0x8000, 0x49), (0x8001, 0xFF)]) 2 = true := by decide

/-- V58: `EOR ($20),Y`. -/
theorem test_V58_eorIndY :
    gives (st 0xAA 0x00 0xFF 0xFF 0x8000 0x00 [(0x0020, 0x01), (0x0021, 0x20), (0x2100, 0xAA), (0x8000, 0x51), (0x8001, 0x20)])
      (st 0x00 0x00 0xFF 0xFF 0x8002 0x02 [(0x0020, 0x01), (0x0021, 0x20), (0x2100, 0xAA), (0x8000, 0x51), (0x8001, 0x20)]) 6 = true := by decide

/-- V60: `CMP #$11`. -/
theorem test_V60_cmpImm :
    gives (st 0x10 0x00 0x00 0xFF 0x8000 0x00 [(0x8000, 0xC9), (0x8001, 0x11)])
      (st 0x10 0x00 0x00 0xFF 0x8002 0x80 [(0x8000, 0xC9), (0x8001, 0x11)]) 2 = true := by decide

/-- V63: `CMP #$00`. -/
theorem test_V63_cmpImm :
    gives (st 0x80 0x00 0x00 0xFF 0x8000 0x00 [(0x8000, 0xC9)])
      (st 0x80 0x00 0x00 0xFF 0x8002 0x81 [(0x8000, 0xC9)]) 2 = true := by decide

/-- V65: `CPX $10`. -/
theorem test_V65_cpxZp :
    gives (st 0x00 0x05 0x00 0xFF 0x8000 0x00 [(0x0010, 0x06), (0x8000, 0xE4), (0x8001, 0x10)])
      (st 0x00 0x05 0x00 0xFF 0x8002 0x80 [(0x0010, 0x06), (0x8000, 0xE4), (0x8001, 0x10)]) 3 = true := by decide

/-- V66: `CPY $1234`. -/
theorem test_V66_cpyAbs :
    gives (st 0x00 0x00 0xFF 0xFF 0x8000 0x00 [(0x1234, 0x7F), (0x8000, 0xCC), (0x8001, 0x34), (0x8002, 0x12)])
      (st 0x00 0x00 0xFF 0xFF 0x8003 0x81 [(0x1234, 0x7F), (0x8000, 0xCC), (0x8001, 0x34), (0x8002, 0x12)]) 4 = true := by decide

/-- V67: `BIT $10`. -/
theorem test_V67_bitZp :
    gives (st 0x0F 0x00 0x00 0xFF 0x8000 0x00 [(0x0010, 0xF0), (0x8000, 0x24), (0x8001, 0x10)])
      (st 0x0F 0x00 0x00 0xFF 0x8002 0xC2 [(0x0010, 0xF0), (0x8000, 0x24), (0x8001, 0x10)]) 3 = true := by decide

/-- V69: `BIT $1234`. -/
theorem test_V69_bitAbs :
    gives (st 0x01 0x00 0x00 0xFF 0x8000 0x42 [(0x1234, 0x81), (0x8000, 0x2C), (0x8001, 0x34), (0x8002, 0x12)])
      (st 0x01 0x00 0x00 0xFF 0x8003 0x80 [(0x1234, 0x81), (0x8000, 0x2C), (0x8001, 0x34), (0x8002, 0x12)]) 4 = true := by decide

/-- V94: `INC $10`. -/
theorem test_V94_incZp :
    gives (st 0x00 0x00 0x00 0xFF 0x8000 0x01 [(0x0010, 0xFF), (0x8000, 0xE6), (0x8001, 0x10)])
      (st 0x00 0x00 0x00 0xFF 0x8002 0x03 [(0x8000, 0xE6), (0x8001, 0x10)]) 5 = true := by decide

/-- V95: `INC $10`. -/
theorem test_V95_incZp :
    gives (st 0x00 0x00 0x00 0xFF 0x8000 0x00 [(0x0010, 0x7F), (0x8000, 0xE6), (0x8001, 0x10)])
      (st 0x00 0x00 0x00 0xFF 0x8002 0x80 [(0x0010, 0x80), (0x8000, 0xE6), (0x8001, 0x10)]) 5 = true := by decide

/-- V96: `INC $1200,X`. -/
theorem test_V96_incAbsX :
    gives (st 0x00 0x01 0x00 0xFF 0x8000 0x00 [(0x8000, 0xFE), (0x8002, 0x12)])
      (st 0x00 0x01 0x00 0xFF 0x8003 0x00 [(0x1201, 0x01), (0x8000, 0xFE), (0x8002, 0x12)]) 7 = true := by decide

/-- V97: `INC $12FF,X`. -/
theorem test_V97_incAbsX :
    gives (st 0x00 0x01 0x00 0xFF 0x8000 0x00 [(0x1300, 0x0F), (0x8000, 0xFE), (0x8001, 0xFF), (0x8002, 0x12)])
      (st 0x00 0x01 0x00 0xFF 0x8003 0x00 [(0x1300, 0x10), (0x8000, 0xFE), (0x8001, 0xFF), (0x8002, 0x12)]) 7 = true := by decide

/-- V98: `DEC $10`. -/
theorem test_V98_decZp :
    gives (st 0x00 0x00 0x00 0xFF 0x8000 0x00 [(0x8000, 0xC6), (0x8001, 0x10)])
      (st 0x00 0x00 0x00 0xFF 0x8002 0x80 [(0x0010, 0xFF), (0x8000, 0xC6), (0x8001, 0x10)]) 5 = true := by decide

/-- V99: `DEC $10,X`. -/
theorem test_V99_decZpX :
    gives (st 0x00 0xF0 0x00 0xFF 0x8000 0x00 [(0x0000, 0x01), (0x8000, 0xD6), (0x8001, 0x10)])
      (st 0x00 0xF0 0x00 0xFF 0x8002 0x02 [(0x8000, 0xD6), (0x8001, 0x10)]) 6 = true := by decide

/-- V100: `DEC $0200,X`. -/
theorem test_V100_decAbsX :
    gives (st 0x00 0x01 0x00 0xFF 0x8000 0x00 [(0x0201, 0x01), (0x8000, 0xDE), (0x8002, 0x02)])
      (st 0x00 0x01 0x00 0xFF 0x8003 0x02 [(0x8000, 0xDE), (0x8002, 0x02)]) 7 = true := by decide

/-- V101: `INX`. -/
theorem test_V101_inx :
    gives (st 0x00 0xFF 0x00 0xFF 0x8000 0x01 [(0x8000, 0xE8)])
      (st 0x00 0x00 0x00 0xFF 0x8001 0x03 [(0x8000, 0xE8)]) 2 = true := by decide

/-- V102: `INY`. -/
theorem test_V102_iny :
    gives (st 0x00 0x00 0x7F 0xFF 0x8000 0x40 [(0x8000, 0xC8)])
      (st 0x00 0x00 0x80 0xFF 0x8001 0xC0 [(0x8000, 0xC8)]) 2 = true := by decide

/-- V103: `DEX`. -/
theorem test_V103_dex :
    gives (st 0x00 0x00 0x00 0xFF 0x8000 0x00 [(0x8000, 0xCA)])
      (st 0x00 0xFF 0x00 0xFF 0x8001 0x80 [(0x8000, 0xCA)]) 2 = true := by decide

/-- V104: `DEY`. -/
theorem test_V104_dey :
    gives (st 0x00 0x00 0x01 0xFF 0x8000 0x00 [(0x8000, 0x88)])
      (st 0x00 0x00 0x00 0xFF 0x8001 0x02 [(0x8000, 0x88)]) 2 = true := by decide

/-- V105: `ASL A`. -/
theorem test_V105_aslAcc :
    gives (st 0x81 0x00 0x00 0xFF 0x8000 0x00 [(0x8000, 0x0A)])
      (st 0x02 0x00 0x00 0xFF 0x8001 0x01 [(0x8000, 0x0A)]) 2 = true := by decide

/-- V107: `ASL A`. -/
theorem test_V107_aslAcc :
    gives (st 0x40 0x00 0x00 0xFF 0x8000 0x01 [(0x8000, 0x0A)])
      (st 0x80 0x00 0x00 0xFF 0x8001 0x80 [(0x8000, 0x0A)]) 2 = true := by decide

/-- V108: `ASL $10`. -/
theorem test_V108_aslZp :
    gives (st 0x00 0x00 0x00 0xFF 0x8000 0x00 [(0x0010, 0x55), (0x8000, 0x06), (0x8001, 0x10)])
      (st 0x00 0x00 0x00 0xFF 0x8002 0x80 [(0x0010, 0xAA), (0x8000, 0x06), (0x8001, 0x10)]) 5 = true := by decide

/-- V109: `LSR A`. -/
theorem test_V109_lsrAcc :
    gives (st 0x01 0x00 0x00 0xFF 0x8000 0x80 [(0x8000, 0x4A)])
      (st 0x00 0x00 0x00 0xFF 0x8001 0x03 [(0x8000, 0x4A)]) 2 = true := by decide

/-- V110: `LSR A`. -/
theorem test_V110_lsrAcc :
    gives (st 0x80 0x00 0x00 0xFF 0x8000 0x01 [(0x8000, 0x4A)])
      (st 0x40 0x00 0x00 0xFF 0x8001 0x00 [(0x8000, 0x4A)]) 2 = true := by decide

/-- V111: `LSR $1234`. -/
theorem test_V111_lsrAbs :
    gives (st 0x00 0x00 0x00 0xFF 0x8000 0x00 [(0x1234, 0xFF), (0x8000, 0x4E), (0x8001, 0x34), (0x8002, 0x12)])
      (st 0x00 0x00 0x00 0xFF 0x8003 0x01 [(0x1234, 0x7F), (0x8000, 0x4E), (0x8001, 0x34), (0x8002, 0x12)]) 6 = true := by decide

/-- V112: `ROL A`. -/
theorem test_V112_rolAcc :
    gives (st 0x80 0x00 0x00 0xFF 0x8000 0x01 [(0x8000, 0x2A)])
      (st 0x01 0x00 0x00 0xFF 0x8001 0x01 [(0x8000, 0x2A)]) 2 = true := by decide

/-- V114: `ROL A`. -/
theorem test_V114_rolAcc :
    gives (st 0x40 0x00 0x00 0xFF 0x8000 0x01 [(0x8000, 0x2A)])
      (st 0x81 0x00 0x00 0xFF 0x8001 0x80 [(0x8000, 0x2A)]) 2 = true := by decide

/-- V115: `ROL $10,X`. -/
theorem test_V115_rolZpX :
    gives (st 0x00 0x01 0x00 0xFF 0x8000 0x00 [(0x0011, 0xFF), (0x8000, 0x36), (0x8001, 0x10)])
      (st 0x00 0x01 0x00 0xFF 0x8002 0x81 [(0x0011, 0xFE), (0x8000, 0x36), (0x8001, 0x10)]) 6 = true := by decide

/-- V116: `ROR A`. -/
theorem test_V116_rorAcc :
    gives (st 0x01 0x00 0x00 0xFF 0x8000 0x00 [(0x8000, 0x6A)])
      (st 0x00 0x00 0x00 0xFF 0x8001 0x03 [(0x8000, 0x6A)]) 2 = true := by decide

/-- V117: `ROR A`. -/
theorem test_V117_rorAcc :
    gives (st 0x00 0x00 0x00 0xFF 0x8000 0x01 [(0x8000, 0x6A)])
      (st 0x80 0x00 0x00 0xFF 0x8001 0x80 [(0x8000, 0x6A)]) 2 = true := by decide

/-- V118: `ROR $10`. -/
theorem test_V118_rorZp :
    gives (st 0x00 0x00 0x00 0xFF 0x8000 0x01 [(0x0010, 0x01), (0x8000, 0x66), (0x8001, 0x10)])
      (st 0x00 0x00 0x00 0xFF 0x8002 0x81 [(0x0010, 0x80), (0x8000, 0x66), (0x8001, 0x10)]) 5 = true := by decide

/-- V119: `ROR $1200,X`. -/
theorem test_V119_rorAbsX :
    gives (st 0x00 0x05 0x00 0xFF 0x8000 0x01 [(0x1205, 0x02), (0x8000, 0x7E), (0x8002, 0x12)])
      (st 0x00 0x05 0x00 0xFF 0x8003 0x80 [(0x1205, 0x81), (0x8000, 0x7E), (0x8002, 0x12)]) 7 = true := by decide

/-- V120: `JMP $1234`. -/
theorem test_V120_jmpAbs :
    gives (st 0x00 0x00 0x00 0xFF 0x8000 0xC3 [(0x8000, 0x4C), (0x8001, 0x34), (0x8002, 0x12)])
      (st 0x00 0x00 0x00 0xFF 0x1234 0xC3 [(0x8000, 0x4C), (0x8001, 0x34), (0x8002, 0x12)]) 3 = true := by decide

/-- V122: `JSR $9000`. -/
theorem test_V122_jsr :
    gives (st 0x00 0x00 0x00 0xFF 0x8000 0x00 [(0x8000, 0x20), (0x8002, 0x90)])
      (st 0x00 0x00 0x00 0xFD 0x9000 0x00 [(0x01FE, 0x02), (0x01FF, 0x80), (0x8000, 0x20), (0x8002, 0x90)]) 6 = true := by decide

/-- V123: `JSR $9000`. -/
theorem test_V123_jsr :
    gives (st 0x00 0x00 0x00 0x00 0x8000 0x00 [(0x8000, 0x20), (0x8002, 0x90)])
      (st 0x00 0x00 0x00 0xFE 0x9000 0x00 [(0x0100, 0x80), (0x01FF, 0x02), (0x8000, 0x20), (0x8002, 0x90)]) 6 = true := by decide

/-- V126: `RTS`. -/
theorem test_V126_rts :
    gives (st 0x00 0x00 0x00 0xFF 0x9000 0x00 [(0x0100, 0xFF), (0x0101, 0xFF), (0x9000, 0x60)])
      (st 0x00 0x00 0x00 0x01 0x0000 0x00 [(0x0100, 0xFF), (0x0101, 0xFF), (0x9000, 0x60)]) 6 = true := by decide

/-- V127: `RTS`. -/
theorem test_V127_rts :
    gives (st 0x00 0x00 0x00 0xFE 0x9000 0x00 [(0x0100, 0x12), (0x01FF, 0x34), (0x9000, 0x60)])
      (st 0x00 0x00 0x00 0x00 0x1235 0x00 [(0x0100, 0x12), (0x01FF, 0x34), (0x9000, 0x60)]) 6 = true := by decide

/-- V128: `BCC *+4`. -/
theorem test_V128_bcc :
    gives (st 0x00 0x00 0x00 0xFF 0x8000 0x00 [(0x8000, 0x90), (0x8001, 0x02)])
      (st 0x00 0x00 0x00 0xFF 0x8004 0x00 [(0x8000, 0x90), (0x8001, 0x02)]) 3 = true := by decide

/-- V141: `BCC $0010`. -/
theorem test_V141_bcc :
    gives (st 0x00 0x00 0x00 0xFF 0xFFF0 0x00 [(0xFFF0, 0x90), (0xFFF1, 0x1E)])
      (st 0x00 0x00 0x00 0xFF 0x0010 0x00 [(0xFFF0, 0x90), (0xFFF1, 0x1E)]) 4 = true := by decide

/-- V130: `BCS *+0`. -/
theorem test_V130_bcs :
    gives (st 0x00 0x00 0x00 0xFF 0x8000 0x01 [(0x8000, 0xB0), (0x8001, 0xFE)])
      (st 0x00 0x00 0x00 0xFF 0x8000 0x01 [(0x8000, 0xB0), (0x8001, 0xFE)]) 3 = true := by decide

/-- V142: `BCS $FFF2`. -/
theorem test_V142_bcs :
    gives (st 0x00 0x00 0x00 0xFF 0x0000 0x01 [(0x0000, 0xB0), (0x0001, 0xF0)])
      (st 0x00 0x00 0x00 0xFF 0xFFF2 0x01 [(0x0000, 0xB0), (0x0001, 0xF0)]) 4 = true := by decide

/-- V131: `BEQ $8101`. -/
theorem test_V131_beq :
    gives (st 0x00 0x00 0x00 0xFF 0x80FA 0x02 [(0x80FA, 0xF0), (0x80FB, 0x05)])
      (st 0x00 0x00 0x00 0xFF 0x8101 0x02 [(0x80FA, 0xF0), (0x80FB, 0x05)]) 4 = true := by decide

/-- V132: `BEQ $8101`. -/
theorem test_V132_beq :
    gives (st 0x00 0x00 0x00 0xFF 0x80FA 0x00 [(0x80FA, 0xF0), (0x80FB, 0x05)])
      (st 0x00 0x00 0x00 0xFF 0x80FC 0x00 [(0x80FA, 0xF0), (0x80FB, 0x05)]) 2 = true := by decide

/-- V133: `BNE $8002`. -/
theorem test_V133_bne :
    gives (st 0x00 0x00 0x00 0xFF 0x8003 0x00 [(0x8003, 0xD0), (0x8004, 0xFD)])
      (st 0x00 0x00 0x00 0xFF 0x8002 0x00 [(0x8003, 0xD0), (0x8004, 0xFD)]) 3 = true := by decide

/-- V134: `BNE $80FF`. -/
theorem test_V134_bne :
    gives (st 0x00 0x00 0x00 0xFF 0x8100 0x00 [(0x8100, 0xD0), (0x8101, 0xFD)])
      (st 0x00 0x00 0x00 0xFF 0x80FF 0x00 [(0x8100, 0xD0), (0x8101, 0xFD)]) 4 = true := by decide

/-- V136: `BMI $8012`. -/
theorem test_V136_bmi :
    gives (st 0x00 0x00 0x00 0xFF 0x8000 0x80 [(0x8000, 0x30), (0x8001, 0x10)])
      (st 0x00 0x00 0x00 0xFF 0x8012 0x80 [(0x8000, 0x30), (0x8001, 0x10)]) 3 = true := by decide

/-- V137: `BPL $7F82`. -/
theorem test_V137_bpl :
    gives (st 0x00 0x00 0x00 0xFF 0x8000 0x00 [(0x8000, 0x10), (0x8001, 0x80)])
      (st 0x00 0x00 0x00 0xFF 0x7F82 0x00 [(0x8000, 0x10), (0x8001, 0x80)]) 4 = true := by decide

/-- V138: `BVC $8081`. -/
theorem test_V138_bvc :
    gives (st 0x00 0x00 0x00 0xFF 0x8000 0x00 [(0x8000, 0x50), (0x8001, 0x7F)])
      (st 0x00 0x00 0x00 0xFF 0x8081 0x00 [(0x8000, 0x50), (0x8001, 0x7F)]) 3 = true := by decide

/-- V139: `BVS $8004`. -/
theorem test_V139_bvs :
    gives (st 0x00 0x00 0x00 0xFF 0x8000 0x00 [(0x8000, 0x70), (0x8001, 0x02)])
      (st 0x00 0x00 0x00 0xFF 0x8002 0x00 [(0x8000, 0x70), (0x8001, 0x02)]) 2 = true := by decide

/-- V140: `BVS $8004`. -/
theorem test_V140_bvs :
    gives (st 0x00 0x00 0x00 0xFF 0x8000 0x40 [(0x8000, 0x70), (0x8001, 0x02)])
      (st 0x00 0x00 0x00 0xFF 0x8004 0x40 [(0x8000, 0x70), (0x8001, 0x02)]) 3 = true := by decide

/-- V143: `PHA`. -/
theorem test_V143_pha :
    gives (st 0x42 0x00 0x00 0xFF 0x8000 0x00 [(0x8000, 0x48)])
      (st 0x42 0x00 0x00 0xFE 0x8001 0x00 [(0x01FF, 0x42), (0x8000, 0x48)]) 3 = true := by decide

/-- V144: `PHA`. -/
theorem test_V144_pha :
    gives (st 0x43 0x00 0x00 0x00 0x8000 0x00 [(0x8000, 0x48)])
      (st 0x43 0x00 0x00 0xFF 0x8001 0x00 [(0x0100, 0x43), (0x8000, 0x48)]) 3 = true := by decide

/-- V145: `PHP`. -/
theorem test_V145_php :
    gives (st 0x00 0x00 0x00 0xFF 0x8000 0x81 [(0x8000, 0x08)])
      (st 0x00 0x00 0x00 0xFE 0x8001 0x81 [(0x01FF, 0xB1), (0x8000, 0x08)]) 3 = true := by decide

/-- V147: `PHP`. -/
theorem test_V147_php :
    gives (st 0x00 0x00 0x00 0xFF 0x8000 0xCF [(0x8000, 0x08)])
      (st 0x00 0x00 0x00 0xFE 0x8001 0xCF [(0x01FF, 0xFF), (0x8000, 0x08)]) 3 = true := by decide

/-- V148: `PLA`. -/
theorem test_V148_pla :
    gives (st 0x11 0x00 0x00 0xFE 0x8000 0x00 [(0x8000, 0x68)])
      (st 0x00 0x00 0x00 0xFF 0x8001 0x02 [(0x8000, 0x68)]) 4 = true := by decide

/-- V149: `PLA`. -/
theorem test_V149_pla :
    gives (st 0x00 0x00 0x00 0xFF 0x8000 0x00 [(0x0100, 0x80), (0x8000, 0x68)])
      (st 0x80 0x00 0x00 0x00 0x8001 0x80 [(0x0100, 0x80), (0x8000, 0x68)]) 4 = true := by decide

/-- V150: `PLP`. -/
theorem test_V150_plp :
    gives (st 0x00 0x00 0x00 0xFE 0x8000 0x00 [(0x01FF, 0xFF), (0x8000, 0x28)])
      (st 0x00 0x00 0x00 0xFF 0x8001 0xCF [(0x01FF, 0xFF), (0x8000, 0x28)]) 4 = true := by decide

/-- V153: `PLP`. -/
theorem test_V153_plp :
    gives (st 0x00 0x00 0x00 0xFE 0x8000 0x30 [(0x01FF, 0xC3), (0x8000, 0x28)])
      (st 0x00 0x00 0x00 0xFF 0x8001 0xF3 [(0x01FF, 0xC3), (0x8000, 0x28)]) 4 = true := by decide

/-- V154: `CLC`. -/
theorem test_V154_clc :
    gives (st 0x00 0x00 0x00 0xFF 0x8000 0xCF [(0x8000, 0x18)])
      (st 0x00 0x00 0x00 0xFF 0x8001 0xCE [(0x8000, 0x18)]) 2 = true := by decide

/-- V155: `SEC`. -/
theorem test_V155_sec :
    gives (st 0x00 0x00 0x00 0xFF 0x8000 0x00 [(0x8000, 0x38)])
      (st 0x00 0x00 0x00 0xFF 0x8001 0x01 [(0x8000, 0x38)]) 2 = true := by decide

/-- V156: `CLI`. -/
theorem test_V156_cli :
    gives (st 0x00 0x00 0x00 0xFF 0x8000 0xCF [(0x8000, 0x58)])
      (st 0x00 0x00 0x00 0xFF 0x8001 0xCB [(0x8000, 0x58)]) 2 = true := by decide

/-- V157: `SEI`. -/
theorem test_V157_sei :
    gives (st 0x00 0x00 0x00 0xFF 0x8000 0x00 [(0x8000, 0x78)])
      (st 0x00 0x00 0x00 0xFF 0x8001 0x04 [(0x8000, 0x78)]) 2 = true := by decide

/-- V158: `CLD`. -/
theorem test_V158_cld :
    gives (st 0x00 0x00 0x00 0xFF 0x8000 0xCF [(0x8000, 0xD8)])
      (st 0x00 0x00 0x00 0xFF 0x8001 0xC7 [(0x8000, 0xD8)]) 2 = true := by decide

/-- V159: `SED`. -/
theorem test_V159_sed :
    gives (st 0x00 0x00 0x00 0xFF 0x8000 0x00 [(0x8000, 0xF8)])
      (st 0x00 0x00 0x00 0xFF 0x8001 0x08 [(0x8000, 0xF8)]) 2 = true := by decide

/-- V160: `CLV`. -/
theorem test_V160_clv :
    gives (st 0x00 0x00 0x00 0xFF 0x8000 0xCF [(0x8000, 0xB8)])
      (st 0x00 0x00 0x00 0xFF 0x8001 0x8F [(0x8000, 0xB8)]) 2 = true := by decide

/-- V161: `NOP`. -/
theorem test_V161_nop :
    gives (st 0x12 0x00 0x00 0xFF 0x8000 0x82 [(0x8000, 0xEA)])
      (st 0x12 0x00 0x00 0xFF 0x8001 0x82 [(0x8000, 0xEA)]) 2 = true := by decide

/-- V162: `BRK`. -/
theorem test_V162_brk :
    gives (st 0x00 0x00 0x00 0xFF 0x8000 0x00 [(0x8001, 0xEA), (0xFFFF, 0x90)])
      (st 0x00 0x00 0x00 0xFC 0x9000 0x04 [(0x01FD, 0x30), (0x01FE, 0x02), (0x01FF, 0x80), (0x8001, 0xEA), (0xFFFF, 0x90)]) 7 = true := by decide

/-- V164: `BRK`. -/
theorem test_V164_brk :
    gives (st 0x00 0x00 0x00 0x01 0x8000 0x04 [(0x8001, 0xEA), (0xFFFE, 0x34), (0xFFFF, 0x12)])
      (st 0x00 0x00 0x00 0xFE 0x1234 0x04 [(0x0100, 0x02), (0x0101, 0x80), (0x01FF, 0x34), (0x8001, 0xEA), (0xFFFE, 0x34), (0xFFFF, 0x12)]) 7 = true := by decide

/-- V167: `RTI`. -/
theorem test_V167_rti :
    gives (st 0x00 0x00 0x00 0xFC 0x9000 0x00 [(0x01FD, 0xFF), (0x01FE, 0x34), (0x01FF, 0x12), (0x9000, 0x40)])
      (st 0x00 0x00 0x00 0xFF 0x1234 0xCF [(0x01FD, 0xFF), (0x01FE, 0x34), (0x01FF, 0x12), (0x9000, 0x40)]) 6 = true := by decide

/-- V168: `RTI`. -/
theorem test_V168_rti :
    gives (st 0x00 0x00 0x00 0xFE 0x9000 0x30 [(0x0100, 0xCD), (0x0101, 0xAB), (0x01FF, 0x81), (0x9000, 0x40)])
      (st 0x00 0x00 0x00 0x01 0xABCD 0xB1 [(0x0100, 0xCD), (0x0101, 0xAB), (0x01FF, 0x81), (0x9000, 0x40)]) 6 = true := by decide

/-- V44: `ADC #$46` with D = 1: the digits and the carry hold whatever the free part is. -/
theorem test_V44_adcImm_decimal :
    givesDecimal (st 0x58 0x00 0x00 0xFF 0x8000 0x09 [(0x8000, 0x69), (0x8001, 0x46)])
      (st 0x05 0x00 0x00 0xFF 0x8002 0x49 [(0x8000, 0x69), (0x8001, 0x46)]) 2 = true := by decide

/-- V50: `SBC #$21` with D = 1: the digits and the carry hold whatever the free part is. -/
theorem test_V50_sbcImm_decimal :
    givesDecimal (st 0x12 0x00 0x00 0xFF 0x8000 0x09 [(0x8000, 0xE9), (0x8001, 0x21)])
      (st 0x91 0x00 0x00 0xFF 0x8002 0x88 [(0x8000, 0xE9), (0x8001, 0x21)]) 2 = true := by decide

/-- V44: `ADC #$46`, of the default instance. -/
theorem test_V44_default : defaultGives .add 0x58 0x46 true 0x05 0x49 = true := by decide

/-- V45: `ADC #$99`, of the default instance. -/
theorem test_V45_default : defaultGives .add 0x99 0x99 true 0x99 0xC9 = true := by decide

/-- V48: `SBC #$01`, of the default instance. -/
theorem test_V48_default : defaultGives .sub 0x00 0x01 true 0x99 0x88 = true := by decide

/-- V52: `ADC #$0F`, of the default instance. -/
theorem test_V52_default : defaultGives .add 0x0F 0x0F false 0x14 0x08 = true := by decide

/-- V169. -/
theorem test_V169_undefined : stops (st 0x11 0x00 0x00 0xFF 0x8000 0x01 [(0x8000, 0x02)]) 0x8000 0x02 = true := by decide

/-- V170. -/
theorem test_V170_undefined : stops (st 0x00 0x00 0x00 0xFF 0xFFFF 0x00 [(0xFFFF, 0xFF)]) 0xFFFF 0xFF = true := by decide

/-- V172. -/
theorem test_V172_undefined : stops (st 0x05 0x00 0x00 0xFF 0x8000 0x01 [(0x8000, 0xEB), (0x8001, 0x01)]) 0x8000 0xEB = true := by decide

/-! ### Execute, Reset and the host's actions (the X and Z rows). -/

/-- The program of X1 to X11: LDA #$01, STA $0200, INC $0200, NOP, an undefined byte. -/
def budgetProgram : Memory :=
  [(0x8000, 0xA9), (0x8001, 0x01), (0x8002, 0x8D), (0x8004, 0x02), (0x8005, 0xEE), (0x8007, 0x02), (0x8008, 0xEA),
   (0x8009, 0x02), (0xFFFD, 0x80)]

/-- `budgetProgram` with [0200] = 01, as X5 leaves it. -/
def budgetProgramAfter : Memory := (0x0200, 0x01) :: budgetProgram

/-- X2: a negative budget. -/
theorem test_X2_negative_budget :
    execute (BitVec.ofInt 64 (-5)) (st 0 0 0 0xFF 0x8000 0 budgetProgram) = .ok 0 (st 0 0 0 0xFF 0x8000 0 budgetProgram) := by decide

/-- X5: the second instruction begins with one cycle left. -/
theorem test_X5_overrun :
    execute 3 (st 0 0 0 0xFF 0x8000 0 budgetProgram) = .ok 6 (st 1 0 0 0xFF 0x8005 0 budgetProgramAfter) := by decide

/-- X9, its last two steps: NOP, then UndefinedOpcode with the total of what completed. -/
theorem test_X9_error_total :
    execute 3 (st 1 0 0 0xFF 0x8008 0 budgetProgramAfter) =
      .undefinedOpcode 0x8009 0x02 2 (st 1 0 0 0xFF 0x8009 0 budgetProgramAfter) := by decide

/-- X12: BRK on a budget of one cycle, the largest overrun. -/
theorem test_X12_largest_overrun :
    execute 1 (st 0 0 0 0xFF 0x8000 0 [(0xFFFF, 0x90)]) =
      .ok 7 (st 0 0 0 0xFC 0x9000 0x04 [(0x01FD, 0x30), (0x01FE, 0x02), (0x01FF, 0x80), (0xFFFF, 0x90)]) := by decide

/-- X15: a budget out of range. -/
theorem test_X15_budget_refused :
    execute (BitVec.ofInt 64 (2 ^ 63 - 7)) State.reset = .refused .budgetTooLarge := by decide

/-- Z1: Reset from arbitrary registers. -/
theorem test_Z1_reset :
    State.resetEntry 0xFF (st 0x55 0x66 0x77 0x12 0x1234 0xFF [(0xFFFD, 0x80)]) =
      st 0 0 0 0xFF 0x8000 0 [(0xFFFD, 0x80)] := by decide

/-- R296: `C0 DE` then `A2 12` loads A2 12 at 0xDEC0 and points the reset vector there. -/
theorem test_loader :
    (match loadImage [0xC0, 0xDE, 0xA2, 0x12] State.reset with
     | .next s => decide (s.mem = [(0xDEC0, 0xA2), (0xDEC1, 0x12), (0xFFFC, 0xC0), (0xFFFD, 0xDE)])
     | _ => false) = true := by decide

/-- R296, its undecided cases: a short image, and one over the reset vector. -/
theorem test_loader_refuses :
    (match loadImage [0x00] State.reset with | .refused r => decide (r = .imageUndecided) | _ => false) = true ∧
    (match loadImage [0xFB, 0xFF, 1, 2] State.reset with | .refused r => decide (r = .imageUndecided) | _ => false) = true := by
  decide

/-- The host's placing of an instruction: NOP is the first instruction after reset; INC $1234 with its operand. -/
theorem test_withFetchWord :
    (match step (State.reset.withFetchWord 8 0xEA) with | .next s => decide (s.pc = 1) | _ => false) = true ∧
    fetchInstr (State.reset.withFetchWord 24 0x1234EE) = some (.incAbs 0x1234) ∧
    (match step (State.reset.withFetchWord 8 0x02) with
     | .fault f => decide (f = .undefinedOpcode 0x0000 0x02) | _ => false) = true := by decide

/-! ### Witnesses: for each obligation with hypotheses, a state and operands that meet all of them, each clause at a
boundary value of its range. -/

/-- LDA #$12 at 0xFFFE: the two bytes it needs are there, the third wraps. -/
def sLoad : State := st 0x55 0x01 0x02 0x00 0xFFFE 0xC3 [(0xFFFE, 0xA9), (0xFFFF, 0x12)]

/-- An undefined byte at the top of memory. -/
def sUndef : State := st 0 0 0 0xFF 0xFFFF 0 [(0xFFFF, 0xFF)]

/-- JSR $9000 with S = 0, so that its two slots are 0x0100 and 0x01FF. -/
def sCall : State := st 1 2 3 0x00 0x8000 0xFF [(0x8000, 0x20), (0x8002, 0x90)]

/-- The outcome is a next state. -/
def completes (o : Host.Outcome State Fault Refusal) : Bool :=
  match o with
  | .next _ => true
  | _ => false

theorem next_of_completes {o : Host.Outcome State Fault Refusal} (h : completes o = true) : ∃ t, o = .next t := by
  cases o with
  | next t => exact ⟨t, rfl⟩
  | fault r => cases h
  | refused r => cases h

theorem witness_StepRunsDecodedInstruction :
    decode [sLoad.read sLoad.pc, sLoad.read (sLoad.pc + 1), sLoad.read (sLoad.pc + 2)] = .instr (.ldaImm 0x12) [0x00] ∧
    decode [sUndef.read sUndef.pc, sUndef.read (sUndef.pc + 1), sUndef.read (sUndef.pc + 2)] = .undefinedOpcode 0xFF := by
  decide

theorem witness_UndefinedBytesFaultAndOthersRun :
    sUndef.read sUndef.pc ∈ undefinedOpcodeBytes ∧ (0x02 : Byte) ∈ undefinedOpcodeBytes ∧
    sLoad.read sLoad.pc ∉ undefinedOpcodeBytes ∧ (0x00 : Byte) ∉ undefinedOpcodeBytes ∧
    (0xFE : Byte) ∉ undefinedOpcodeBytes ∧ undefinedOpcodeBytes.length = 105 := by decide

theorem witness_EncodeOfDecodeIsTheBytes : decode [0x4C, 0x34, 0x12, 0xFF] = .instr (.jmpAbs 0x1234) [0xFF] := by decide

theorem witness_StepKeepsMemoryCanonical : sCall.Inv = true ∧ ∃ t, step sCall = .next t :=
  ⟨by decide, next_of_completes (by decide)⟩

theorem witness_ResetMemoryCanonical : sCall.Inv = true ∧ sUndef.Inv = true := by decide

theorem witness_ResetLeavesTheSpecState : (st 0x55 0x66 0x77 0x12 0x1234 0xFF sCall.mem).mem = sCall.mem := by decide

/-- PLP with B and U set by the host (V153). -/
theorem witness_LiveBreakAndUnused :
    ∃ t, step (st 0 0 0 0xFE 0x8000 0x30 [(0x01FF, 0xC3), (0x8000, 0x28)]) = .next t :=
  next_of_completes (by decide)

theorem witness_InterruptAndDecimalFlagsInfluenceOnly :
    (∃ t, exec .rti sCall = .next t) ∧ Instr.operation .rti ∉ [.php, .brk] ∧
    Instr.operation .rti ∉ [.adc, .sbc, .php, .brk] ∧ Instr.operation (.adcImm 0) ∉ [.php, .brk] ∧
    (∃ t, exec (.sbcImm 0x99) sCall = .next t) ∧ Instr.operation (.sbcImm 0x99) ∈ [.adc, .sbc] ∧
    (∃ t, exec .php sCall = .next t) ∧ (0x0100 : Addr) = stackAddr sCall.sp ∧
    (∃ t, exec .brk sCall = .next t) ∧ (0x01FE : Addr) = stackAddr (sCall.sp - 2) :=
  ⟨next_of_completes (by decide), by decide, by decide, by decide, next_of_completes (by decide), by decide,
    next_of_completes (by decide), by decide, next_of_completes (by decide), by decide⟩

theorem witness_FlagsUnchangedUnlessListed :
    (∃ t, exec (.ldaImm 0) sCall = .next t) ∧ Flag.c ∉ flagsWritten (Instr.operation (.ldaImm 0)) ∧
    Flag.b ∉ flagsWritten .plp ∧ Flag.n ∉ flagsWritten .txs :=
  ⟨next_of_completes (by decide), by decide, by decide, by decide⟩

theorem witness_RegistersUnchangedUnlessListed :
    (∃ t, exec (.aslZp 0xFF) sCall = .next t) ∧ writesA (.aslZp 0xFF) = false ∧ writesX (.aslZp 0xFF) = false ∧
    writesY (.aslZp 0xFF) = false ∧ writesS (.aslZp 0xFF) = false ∧ writesA .aslAcc = true :=
  ⟨next_of_completes (by decide), by decide, by decide, by decide, by decide, by decide⟩

/-- JSR with S = 0 stores at 0x0100 and 0x01FF; a load stores nowhere. -/
theorem witness_MemoryUnchangedOutsideStoredBytes :
    (∃ t, exec (.jsr 0x9000) sCall = .next t) ∧ storedAddrs (.jsr 0x9000) sCall = [0x0100, 0x01FF] ∧
    (0x0101 : Addr) ∉ storedAddrs (.jsr 0x9000) sCall ∧ (0x0010 : Addr) ∉ storedAddrs (.ldaZp 0x10) sCall :=
  ⟨next_of_completes (by decide), by decide, by decide, by decide⟩

theorem witness_ProgramCounterAfterEachInstruction :
    Instr.operation .nop ∉ [.jmp, .jsr, .rts, .bcc, .bcs, .beq, .bne, .bmi, .bpl, .bvc, .bvs, .brk, .rti] ∧
    (∃ t, exec .nop sLoad = .next t) ∧ (∃ t, exec (.jmpAbs 0xFFFF) sLoad = .next t) ∧
    (∃ t, exec (.jmpInd 0x30FF) sLoad = .next t) ∧ (∃ t, exec (.jsr 0x0000) sLoad = .next t) ∧
    (∃ t, exec .rts sLoad = .next t) ∧ Instr.operand (.bcs 0x80) = .relative 0x80 ∧
    (∃ t, exec (.bcs 0x80) sLoad = .next t) ∧ branchTaken .bcs sLoad.p = true ∧ branchTaken .bcc sLoad.p = false ∧
    (∃ t, exec .brk sLoad = .next t) ∧ (∃ t, exec .rti sLoad = .next t) :=
  ⟨by decide, next_of_completes (by decide), next_of_completes (by decide), next_of_completes (by decide),
    next_of_completes (by decide), next_of_completes (by decide), by decide, next_of_completes (by decide), by decide,
    by decide, next_of_completes (by decide), next_of_completes (by decide)⟩

theorem witness_ZeroPageModesWrapInPageZero :
    Instr.operand (.ldxZpY 0xFF) = .source (.mem (.zpY 0xFF)) ∧
    Instr.operand (.stxZpY 0x00) = .source (.mem (.zpY 0x00)) := by decide

/-- The two sides of the page-crossing equivalence: V6 and V7, and the wrap of V8. -/
theorem witness_PageCrossing :
    pageCrossed (.absX 0x12F0) (st 0 0x0F 0 0 0 0 []) = false ∧
    pageCrossed (.absX 0x12F0) (st 0 0x10 0 0 0 0 []) = true ∧
    pageCrossed (.absX 0xFFFF) (st 0 0x01 0 0 0 0 []) = true := by decide

/-- For LoadsReplaceTheRegister, StoresWriteOneByte, AdcWritesTheSum, SbcWritesTheDifference, LogicWritesA,
ComparesSetTheFlagsOnly and BitTestsWithoutTouchingA. -/
theorem witness_operations_with_a_source :
    (Instr.ldaIndY 0xFF).operation = .lda ∧ (Instr.ldxZpY 0).operation = .ldx ∧ (Instr.ldyAbsX 0xFFFF).operation = .ldy ∧
    (Instr.staAbsX 0).operation = .sta ∧ (Instr.stxZpY 0).operation = .stx ∧ (Instr.styZpX 0).operation = .sty ∧
    (Instr.adcIndX 0).operation = .adc ∧ (Instr.sbcImm 0xFF).operation = .sbc ∧ (Instr.andZp 0).operation = .and ∧
    (Instr.oraImm 0).operation = .ora ∧ (Instr.eorAbsY 0).operation = .eor ∧ (Instr.cmpImm 0).operation = .cmp ∧
    (Instr.cpxZp 0).operation = .cpx ∧ (Instr.cpyAbs 0).operation = .cpy ∧ (Instr.bitAbs 0).operation = .bit := by decide

theorem witness_IncAndDecModifyTheirByte :
    (Instr.incZp 0xFF).operation = .inc ∧ (Instr.incZp 0xFF).operand = .source (.mem (.zp 0xFF)) ∧
    (Instr.decAbsX 0xFFFF).operation = .dec ∧ (Instr.decAbsX 0xFFFF).operand = .source (.mem (.absX 0xFFFF)) := by decide

theorem witness_MemoryShiftsMoveOneBit :
    (Instr.aslZp 0).operation = .asl ∧ (Instr.aslZp 0).operand = .source (.mem (.zp 0)) ∧
    (Instr.lsrZpX 0).operation = .lsr ∧ (Instr.lsrZpX 0).operand = .source (.mem (.zpX 0)) ∧
    (Instr.rolAbs 0).operation = .rol ∧ (Instr.rolAbs 0).operand = .source (.mem (.abs 0)) ∧
    (Instr.rorAbsX 0).operation = .ror ∧ (Instr.rorAbsX 0).operand = .source (.mem (.absX 0)) ∧
    (Instr.rorAcc).operation ∈ [.asl, .lsr, .rol, .ror] := by decide

/-- 99 + 99 + 1 and 00 - 99 - 1, the ends of the decimal range. -/
theorem witness_DecimalResultOnValidDigits :
    (Instr.adcImm 0x99).operand = .source (.imm 0x99) ∧ (Instr.adcImm 0x99).operation = .adc ∧
    (Instr.sbcImm 0x99).operand = .source (.imm 0x99) ∧ (Instr.sbcImm 0x99).operation = .sbc ∧
    (st 0x99 0 0 0 0 0x09 []).p.d = true ∧ validBcd (st 0x99 0 0 0 0 0x09 []).a = true ∧
    (st 0x00 0 0 0 0 0x08 []).p.d = true ∧ validBcd (st 0x00 0 0 0 0 0x08 []).a = true ∧
    validBcd (sourceValue (.imm 0x99) (st 0x99 0 0 0 0 0x09 [])) = true ∧ validBcd 0x9A = false ∧ validBcd 0xA0 = false := by
  decide

theorem witness_DecimalDefaultMeetsTheFixedPart :
    validBcd 0x00 = true ∧ validBcd 0x99 = true ∧ validBcd 0x09 = true ∧ validBcd 0x90 = true := by decide

theorem witness_JumpsLoadPcAlone :
    (0x30FE : Addr).toNat % 256 ≠ 0xFF ∧ (0x0000 : Addr).toNat % 256 ≠ 0xFF ∧ ¬ (0x30FF : Addr).toNat % 256 ≠ 0xFF := by decide

/-- An address outside the slots of a push at S = 0: for BreakThenReturnRestoresTheState, CallThenReturnRestoresTheStack,
PushAndPullPairs and PopOfPushReturnsTheWord. -/
theorem witness_stack_frames :
    (0x0101 : Addr) ∉ [0x0100 + sCall.sp.zeroExtend 16, 0x0100 + (sCall.sp - 1).zeroExtend 16,
      0x0100 + (sCall.sp - 2).zeroExtend 16] ∧ (0x0200 : Addr) ≠ 0x0100 + sCall.sp.zeroExtend 16 := by decide

theorem witness_ExecuteOverrunsByAtMostSix :
    (1 : BitVec 64).toInt > 0 ∧
    execute 1 (st 0 0 0 0xFF 0x8000 0 []) =
      .ok 7 (st 0 0 0 0xFC 0x0000 0x04 [(0x01FD, 0x30), (0x01FE, 0x02), (0x01FF, 0x80)]) := by decide

theorem witness_ExecuteOutsideItsRangeDoesNothing :
    (0 : BitVec 64).toInt ≤ 0 ∧ (BitVec.ofInt 64 (-(2 ^ 63))).toInt ≤ 0 ∧
    (BitVec.ofInt 64 (2 ^ 63 - 7)).toInt > 2 ^ 63 - 8 ∧ (BitVec.ofInt 64 (2 ^ 63 - 1)).toInt > 2 ^ 63 - 8 ∧
    (BitVec.ofInt 64 (2 ^ 63 - 8)).toInt ≤ 2 ^ 63 - 8 := by decide

theorem witness_ExecuteOneIsOneStep :
    (∃ t, step sLoad = .next t) ∧ step sUndef = .fault (.undefinedOpcode 0xFFFF 0xFF) :=
  ⟨next_of_completes (by decide), rfl⟩

theorem witness_ExecuteStopsAtABoundaryAndRepeatsTheError :
    (∃ used s', execute 3 (st 0 0 0 0xFF 0x8000 0 budgetProgram) = .ok used s') ∧
    (∃ addr byte used s', execute 3 (st 1 0 0 0xFF 0x8008 0 budgetProgramAfter) = .undefinedOpcode addr byte used s') ∧
    (1 : BitVec 64).toInt > 0 ∧ (BitVec.ofInt 64 (2 ^ 63 - 8)).toInt > 0 ∧
    (BitVec.ofInt 64 (2 ^ 63 - 8)).toInt ≤ 2 ^ 63 - 8 :=
  ⟨⟨_, _, test_X5_overrun⟩, ⟨_, _, _, _, test_X9_error_total⟩, by decide, by decide, by decide⟩

theorem witness_CycleCountsLieBetweenTwoAndSeven :
    (∀ off, Instr.operand (.ldaAbsX 0x12FF) ≠ .relative off) ∧ (∀ off, Instr.operand .brk ≠ .relative off) ∧
    Instr.operand (.bvs 0x80) = .relative 0x80 ∧ branchTaken .bvs (flags 0x40) = branchTaken .bvs (flags 0xFF) ∧
    branchTaken .bvs (flags 0x00) = branchTaken .bvs (flags 0xBF) := by
  refine ⟨fun off h => ?_, fun off h => ?_, rfl, rfl, rfl⟩ <;> cases h

/-- Stores over the bytes that the next step fetches, with S = 0: STA over the opcode after it, INC over an operand, BRK
over its three slots. -/
theorem test_byteAfter :
    byteAfter (.staAbs 0x8003) sCall 0x8003 = 0x01 ∧ byteAfter (.staAbs 0x8003) sCall 0x8002 = 0x90 ∧
    byteAfter (.incAbs 0x8002) sCall 0x8002 = 0x91 ∧ byteAfter .brk sCall 0x0100 = 0x80 ∧
    byteAfter .brk sCall 0x01FF = 0x02 ∧ byteAfter .brk sCall 0x01FE = 0xFF ∧
    byteAfter (.ldaImm 0) sCall 0x8000 = 0x20 := by decide

theorem witness_ZeroMemoryLoopsThroughTheTrap :
    State.reset.pc = 0 ∧ State.reset.read 0x0000 = 0 ∧ State.reset.read 0xFFFE = 0 ∧ State.reset.read 0xFFFF = 0 := by decide

end Sys2Proof.Tests
end

section
/-! SUPPORT. What an instruction can do, said once: its meaning by operation and operand, the equation that ties it to
`exec`, what it sees and leaves of the status, the registers and PC (10_state.md R21 to R37). -/

namespace Sys2Proof.Machine

/-- The meaning of each operation with each form of operand it has, one row each. `exec_eq_meaning` ties the rows to
`exec`. -/
inductive Meaning : Operation → Operand → (State → State) → Prop where
  | adc (src : Source) : Meaning .adc (.source src) (addWithCarry src)
  | sbc (src : Source) : Meaning .sbc (.source src) (subWithCarry src)
  | and (src : Source) : Meaning .and (.source src) (logicOp (· &&& ·) src)
  | ora (src : Source) : Meaning .ora (.source src) (logicOp (· ||| ·) src)
  | eor (src : Source) : Meaning .eor (.source src) (logicOp (· ^^^ ·) src)
  | cmp (src : Source) : Meaning .cmp (.source src) (fun s => compareOp s.a src s)
  | cpx (src : Source) : Meaning .cpx (.source src) (fun s => compareOp s.x src s)
  | cpy (src : Source) : Meaning .cpy (.source src) (fun s => compareOp s.y src s)
  | bit (src : Source) : Meaning .bit (.source src) (bitTestOp src)
  | lda (src : Source) : Meaning .lda (.source src) (loadA src)
  | ldx (src : Source) : Meaning .ldx (.source src) (loadX src)
  | ldy (src : Source) : Meaning .ldy (.source src) (loadY src)
  | sta (m : MemOperand) : Meaning .sta (.source (.mem m)) (fun s => storeOp m s.a s)
  | stx (m : MemOperand) : Meaning .stx (.source (.mem m)) (fun s => storeOp m s.x s)
  | sty (m : MemOperand) : Meaning .sty (.source (.mem m)) (fun s => storeOp m s.y s)
  | inc (m : MemOperand) : Meaning .inc (.source (.mem m)) (incDecMem (· + 1) m)
  | dec (m : MemOperand) : Meaning .dec (.source (.mem m)) (incDecMem (· - 1) m)
  | aslMem (m : MemOperand) : Meaning .asl (.source (.mem m)) (shiftMem aslByte m)
  | lsrMem (m : MemOperand) : Meaning .lsr (.source (.mem m)) (shiftMem lsrByte m)
  | rolMem (m : MemOperand) : Meaning .rol (.source (.mem m)) (shiftMem rolByte m)
  | rorMem (m : MemOperand) : Meaning .ror (.source (.mem m)) (shiftMem rorByte m)
  | aslAcc : Meaning .asl .accumulator (shiftAcc aslByte)
  | lsrAcc : Meaning .lsr .accumulator (shiftAcc lsrByte)
  | rolAcc : Meaning .rol .accumulator (shiftAcc rolByte)
  | rorAcc : Meaning .ror .accumulator (shiftAcc rorByte)
  | inx : Meaning .inx .implied (fun s => { s.advance 1 with x := s.x + 1, p := s.p.setZN (s.x + 1) })
  | iny : Meaning .iny .implied (fun s => { s.advance 1 with y := s.y + 1, p := s.p.setZN (s.y + 1) })
  | dex : Meaning .dex .implied (fun s => { s.advance 1 with x := s.x - 1, p := s.p.setZN (s.x - 1) })
  | dey : Meaning .dey .implied (fun s => { s.advance 1 with y := s.y - 1, p := s.p.setZN (s.y - 1) })
  | tax : Meaning .tax .implied (fun s => { s.advance 1 with x := s.a, p := s.p.setZN s.a })
  | tay : Meaning .tay .implied (fun s => { s.advance 1 with y := s.a, p := s.p.setZN s.a })
  | txa : Meaning .txa .implied (fun s => { s.advance 1 with a := s.x, p := s.p.setZN s.x })
  | tya : Meaning .tya .implied (fun s => { s.advance 1 with a := s.y, p := s.p.setZN s.y })
  | tsx : Meaning .tsx .implied (fun s => { s.advance 1 with x := s.sp, p := s.p.setZN s.sp })
  | txs : Meaning .txs .implied (fun s => { s.advance 1 with sp := s.x })
  | clc : Meaning .clc .implied (fun s => { s.advance 1 with p := { s.p with c := false } })
  | sec : Meaning .sec .implied (fun s => { s.advance 1 with p := { s.p with c := true } })
  | cli : Meaning .cli .implied (fun s => { s.advance 1 with p := { s.p with i := false } })
  | sei : Meaning .sei .implied (fun s => { s.advance 1 with p := { s.p with i := true } })
  | cld : Meaning .cld .implied (fun s => { s.advance 1 with p := { s.p with d := false } })
  | sed : Meaning .sed .implied (fun s => { s.advance 1 with p := { s.p with d := true } })
  | clv : Meaning .clv .implied (fun s => { s.advance 1 with p := { s.p with v := false } })
  | nop : Meaning .nop .implied (fun s => s.advance 1)
  | pha : Meaning .pha .implied (fun s => (s.advance 1).push8 s.a)
  | php : Meaning .php .implied (fun s => (s.advance 1).push8 s.p.pushed)
  | pla : Meaning .pla .implied pullA
  | plp : Meaning .plp .implied pullStatus
  | jmpAbs (w : Addr) : Meaning .jmp (.source (.mem (.abs w))) (fun s => jumpTo (effAddr (.abs w) s) s)
  | jmpInd (w : Addr) : Meaning .jmp (.indirect w) (fun s => jumpTo (s.pageRead16 w) s)
  | jsr (w : Addr) : Meaning .jsr (.source (.mem (.abs w))) (fun s => callTo (effAddr (.abs w) s) s)
  | rts : Meaning .rts .implied returnFromCall
  | brk : Meaning .brk .implied (fun s => s.enterTrap (s.pc + 2))
  | rti : Meaning .rti .implied State.returnFromTrap
  | bcc (off : Byte) : Meaning .bcc (.relative off) (fun s => branchIf (!s.p.c) off s)
  | bcs (off : Byte) : Meaning .bcs (.relative off) (fun s => branchIf s.p.c off s)
  | beq (off : Byte) : Meaning .beq (.relative off) (fun s => branchIf s.p.z off s)
  | bne (off : Byte) : Meaning .bne (.relative off) (fun s => branchIf (!s.p.z) off s)
  | bmi (off : Byte) : Meaning .bmi (.relative off) (fun s => branchIf s.p.n off s)
  | bpl (off : Byte) : Meaning .bpl (.relative off) (fun s => branchIf (!s.p.n) off s)
  | bvc (off : Byte) : Meaning .bvc (.relative off) (fun s => branchIf (!s.p.v) off s)
  | bvs (off : Byte) : Meaning .bvs (.relative off) (fun s => branchIf s.p.v off s)

/-- Every instruction runs by the row of its operation and operand, from every state. -/
theorem exec_eq_meaning (i : Instr) :
    ∃ f, Meaning i.operation i.operand f ∧ ∀ s, exec i s = .next (f s) := by
  cases i
  all_goals
    apply Exists.intro
    apply And.intro
    · constructor
    · exact fun _ => rfl

/-- An answer of `exec` is the meaning's answer, and the same meaning gives the answer from any other state. -/
theorem exec_next_cases {i : Instr} {s t : State} (h : exec i s = .next t) :
    ∃ f, Meaning i.operation i.operand f ∧ t = f s ∧ ∀ s', exec i s' = .next (f s') := by
  obtain ⟨f, hm, hf⟩ := exec_eq_meaning i
  rw [hf, Host.Outcome.next.injEq] at h
  exact ⟨f, hm, h.symm, hf⟩

/-! ### Flags by name -/

/-- Statuses with the same flags are equal. -/
theorem Status.ext_get {p q : Status} (h : ∀ g, p.get g = q.get g) : p = q := by
  obtain ⟨⟩ := p
  obtain ⟨⟩ := q
  simp only [Status.mk.injEq]
  exact ⟨h .n, h .v, h .u, h .b, h .d, h .i, h .z, h .c⟩

/-- The status with one flag replaced. -/
def Status.put (p : Status) : Flag → Bool → Status
  | .n, w => { p with n := w }
  | .v, w => { p with v := w }
  | .u, w => { p with u := w }
  | .b, w => { p with b := w }
  | .d, w => { p with d := w }
  | .i, w => { p with i := w }
  | .z, w => { p with z := w }
  | .c, w => { p with c := w }

@[simp] theorem Status.get_put (p : Status) (g k : Flag) (w : Bool) :
    (p.put g w).get k = if k = g then w else p.get k := by
  cases g <;> cases k <;> rfl

/-- Two statuses that differ in one flag at most are equal when it is set to the same. -/
theorem Status.put_get_of_agree {p q : Status} {g : Flag} (h : ∀ k, k ≠ g → q.get k = p.get k) :
    q.put g (p.get g) = p := by
  refine Status.ext_get fun k => ?_
  rw [Status.get_put]
  split
  · next hk => rw [hk]
  · next hk => exact h k hk

/-- The status with the flags `fs` of `r` and the others of `p`. -/
def Status.overwrite (p : Status) (fs : List Flag) (r : Status) : Status where
  n := if .n ∈ fs then r.n else p.n
  v := if .v ∈ fs then r.v else p.v
  u := if .u ∈ fs then r.u else p.u
  b := if .b ∈ fs then r.b else p.b
  d := if .d ∈ fs then r.d else p.d
  i := if .i ∈ fs then r.i else p.i
  z := if .z ∈ fs then r.z else p.z
  c := if .c ∈ fs then r.c else p.c

@[simp] theorem Status.get_overwrite (p r : Status) (fs : List Flag) (g : Flag) :
    (p.overwrite fs r).get g = if g ∈ fs then r.get g else p.get g := by
  cases g <;> rfl

/-- The state with its status replaced. -/
def State.withP (s : State) (q : Status) : State := { s with p := q }

/-! ### The status byte (R28) -/

/-- The eight bits of the status byte. -/
theorem Status.toByte_bits (p : Status) :
    p.toByte.getLsbD 7 = p.n ∧ p.toByte.getLsbD 6 = p.v ∧ p.toByte.getLsbD 5 = p.u ∧ p.toByte.getLsbD 4 = p.b ∧
    p.toByte.getLsbD 3 = p.d ∧ p.toByte.getLsbD 2 = p.i ∧ p.toByte.getLsbD 1 = p.z ∧ p.toByte.getLsbD 0 = p.c := by
  simp only [Status.toByte, BitVec.getLsbD_append, BitVec.getLsbD_ofBool]
  simp

/-- The pushed byte is that of the status with U and B set, so the live U and B are not in it (R231, R242). -/
theorem Status.pushed_eq_toByte (p : Status) : p.pushed = Status.toByte { p with u := true, b := true } := by
  apply BitVec.eq_of_getLsbD_eq
  intro k hk
  rw [Status.pushed, BitVec.getLsbD_or]
  have hbits := p.toByte_bits
  have hbits' := Status.toByte_bits { p with u := true, b := true }
  interval_cases k <;> simp only [hbits, hbits'] <;> simp

/-! ### What an instruction sees of the status, and what it leaves of it -/

/-- The flags an operation can depend on: N, V, Z, C (the conditions of the branches and the carry-in), for ADC and SBC
also D (R144), and for PHP and BRK the six live flags of the byte they push (R231, R242). -/
def flagsSeen : Operation → List Flag
  | .adc | .sbc => [.n, .v, .z, .c, .d]
  | .php | .brk => [.n, .v, .z, .c, .d, .i]
  | _ => [.n, .v, .z, .c]

theorem nvzc_mem_flagsSeen (op : Operation) : ∀ g ∈ [Flag.n, .v, .z, .c], g ∈ flagsSeen op := by
  cases op <;> decide

theorem i_mem_flagsSeen_iff (op : Operation) : .i ∈ flagsSeen op ↔ op ∈ [.php, .brk] := by
  cases op <;> decide

theorem d_mem_flagsSeen_iff (op : Operation) : .d ∈ flagsSeen op ↔ op ∈ [.adc, .sbc, .php, .brk] := by
  cases op <;> decide

/-- No operation sees B or U, and no row of R37 lists them (R33, R34). -/
theorem b_u_unseen_and_unwritten (op : Operation) :
    ∀ g ∈ [Flag.b, .u], g ∉ flagsSeen op ∧ g ∉ flagsWritten op := by
  cases op <;> decide

section Meaning
variable {op : Operation} {opd : Operand} {f : State → State} (hm : Meaning op opd f) (s : State)
include hm

/-- From a status `q` that shows the operation the same flags, it answers the same state but for the status, and there
the flags that R37 does not list are those of `q`. -/
theorem Meaning.run_withP {q : Status} (hq : ∀ g ∈ flagsSeen op, q.get g = s.p.get g) :
    f (s.withP q) = (f s).withP (q.overwrite (flagsWritten op) (f s).p) := by
  have hnvzc g (hg : g ∈ [.n, .v, .z, .c]) : q.get g = s.p.get g := hq g (nvzc_mem_flagsSeen op g hg)
  obtain ⟨n, v, u, b, d, i, z, c⟩ := q
  cases hnvzc .n (by decide)
  cases hnvzc .v (by decide)
  cases hnvzc .z (by decide)
  cases hnvzc .c (by decide)
  cases hm with
  | adc | sbc =>
    cases hq .d (by decide)
    rfl
  | php | brk =>
    cases hq .d (by decide)
    cases hq .i (by decide)
    simp only [State.enterTrap, Status.pushed_eq_toByte]
    rfl
  | _ => rfl

/-- R37 as a frame: a flag that the row of an operation does not list keeps its value. -/
theorem Meaning.get_of_not_written {g : Flag} (hg : g ∉ flagsWritten op) : (f s).p.get g = s.p.get g := by
  have h : f s = (f s).withP (s.p.overwrite (flagsWritten op) (f s).p) := hm.run_withP s (q := s.p) fun _ _ => rfl
  rw [h]
  simp [State.withP, hg]

/-- An unseen flag that is replaced changes no other flag of the answer. -/
theorem Meaning.run_put {g : Flag} (hg : g ∉ flagsSeen op) (w : Bool) :
    ∃ r, f (s.withP (s.p.put g w)) = (f s).withP r ∧ (∀ k, k ≠ g → r.get k = (f s).p.get k) ∧
      (g ∉ flagsWritten op → r.get g = w) := by
  refine ⟨_, hm.run_withP s fun k hk => ?_, fun k hk => ?_, fun hg => ?_⟩
  · rw [Status.get_put, if_neg (ne_of_mem_of_not_mem hk hg)]
  · rw [Status.get_overwrite, Status.get_put, if_neg hk]
    split
    · rfl
    · next hk => exact (hm.get_of_not_written s hk).symm
  · simp [hg]

/-- A flag that an operation neither sees nor writes goes through it unchanged and changes nothing else. -/
theorem Meaning.run_put_unwritten {g : Flag} (hg : g ∉ flagsSeen op) (hg' : g ∉ flagsWritten op) (w : Bool) :
    f (s.withP (s.p.put g w)) = (f s).withP ((f s).p.put g w) := by
  obtain ⟨r, hr, hother, hw⟩ := hm.run_put s hg w
  rw [hr, ← hw hg', Status.put_get_of_agree fun k hk => (hother k hk).symm]

/-- An unseen flag that is replaced changes nothing but itself. -/
theorem Meaning.eq_but_for_put {g : Flag} (hg : g ∉ flagsSeen op) (w : Bool) :
    f s = (f (s.withP (s.p.put g w))).withP ((f (s.withP (s.p.put g w))).p.put g ((f s).p.get g)) := by
  obtain ⟨r, hr, hother, -⟩ := hm.run_put s hg w
  rw [hr]
  exact congrArg (f s).withP (Status.put_get_of_agree hother).symm

/-- The D of ADC and SBC decides the outputs of their adder and nothing else. -/
theorem Meaning.eq_but_for_adder_outputs (hop : op ∈ [.adc, .sbc]) (w : Bool) :
    f s = { f (s.withP (s.p.put .d w)) with
      a := (f s).a
      p := { (f (s.withP (s.p.put .d w))).p with
        n := (f s).p.n, v := (f s).p.v, z := (f s).p.z, c := (f s).p.c, d := (f s).p.d } } := by
  cases hm with
  | adc | sbc => rfl
  | _ => exact absurd hop (by decide)

end Meaning

/-! ### The trap, and the pushed status -/

/-- No address from 0x0200 on is a stack slot (R24). -/
theorem ne_stackAddr_of_le {addr : Addr} (h : 512 ≤ addr.toNat) (j : Byte) : addr ≠ stackAddr j := by
  rintro rfl
  rw [stackAddr_toNat] at h
  omega

/-- The word at the interrupt vector is the same before and after the pushes of a trap: it is not on the stack page. -/
theorem State.enterTrap_pc_before_pushes (s : State) (ret : Addr) :
    (s.enterTrap ret).pc = s.read16 Config.breakVector := by
  have hlow := ne_stackAddr_of_le (addr := Config.breakVector) (by decide)
  have hhigh := ne_stackAddr_of_le (addr := Config.breakVector + 1) (by decide)
  simp only [State.enterTrap_pc, State.read16, State.read_push8, State.read_push16, hlow, hhigh, if_false]

/-- TAKING THE TRAP as one record, its PC read before the pushes (R265). -/
theorem State.enterTrap_eq (s : State) (ret : Addr) :
    s.enterTrap ret =
      { s with
        sp := s.sp - 1 - 1 - 1
        pc := s.read16 Config.breakVector
        p := { s.p with i := true }
        mem := (s.enterTrap ret).mem } := by
  rw [← State.enterTrap_pc_before_pushes s ret, ← State.enterTrap_a s ret, ← State.enterTrap_x s ret,
    ← State.enterTrap_y s ret]
  rfl

/-- PHP and BRK with a flag replaced: the flag, and the byte in the slot of the pushed status. -/
theorem push_status_eq_but_for_put {i : Instr} {s t : State} {slot : Addr}
    (hslot : (i = .php ∧ slot = stackAddr s.sp) ∨ (i = .brk ∧ slot = stackAddr (s.sp - 2)))
    (h : exec i s = .next t) (g : Flag) (w : Bool) :
    ∃ t', exec i (s.withP (s.p.put g w)) = .next t' ∧
      t = { t' with mem := t.mem, p := t'.p.put g (t.p.get g) } ∧
      ∀ addr, addr ≠ slot → t'.read addr = t.read addr := by
  obtain ⟨rfl, rfl⟩ | ⟨rfl, rfl⟩ := hslot
  · cases h
    refine ⟨_, rfl, ?_, fun addr haddr => ?_⟩
    · have hflags : (s.p.put g w).put g (s.p.get g) = s.p := Status.put_get_of_agree fun k hk => by simp [hk]
      exact congrArg ((s.advance 1).push8 s.p.pushed).withP hflags.symm
    · have hread (v : Byte) (q : Status) : (((s.withP q).advance 1).push8 v).read addr = s.read addr :=
        (State.read_push8 _ v addr).trans (if_neg haddr)
      exact (hread _ _).trans (hread _ s.p).symm
  · cases h
    refine ⟨_, rfl, ?_, fun addr haddr => ?_⟩
    · have hflags : ((s.p.put g w).put .i true).put g ((s.p.put .i true).get g) = s.p.put .i true :=
        Status.put_get_of_agree fun k hk => by simp [hk]
      rw [State.enterTrap_eq (s.withP _), State.enterTrap_eq s]
      exact congrArg (State.withP { s with
        sp := s.sp - 1 - 1 - 1, pc := s.read16 Config.breakVector, mem := (s.enterTrap (s.pc + 2)).mem }) hflags.symm
    · have haddr : addr ≠ stackAddr (s.sp - 1 - 1) := by rwa [show s.sp - 1 - 1 = s.sp - 2 by bv_omega]
      have hread (q : Status) : ((s.withP q).enterTrap (s.pc + 2)).read addr = (s.push16 (s.pc + 2)).read addr := by
        rw [State.read_enterTrap, State.read_push16]
        exact if_neg haddr
      exact (hread _).trans (hread s.p).symm

/-! ### Registers and PC (R21 to R26) -/

section Registers
variable {op : Operation} {opd : Operand} {f : State → State} (hm : Meaning op opd f) (s : State)
include hm

theorem Meaning.a_of_not_written (hop : op ∉ [.lda, .txa, .tya, .pla, .adc, .sbc, .and, .ora, .eor])
    (hopd : opd ≠ .accumulator) : (f s).a = s.a := by
  cases hm with
  | lda | txa | tya | pla | adc | sbc | and | ora | eor => exact absurd (by decide) hop
  | aslAcc | lsrAcc | rolAcc | rorAcc => exact absurd rfl hopd
  | brk => exact State.enterTrap_a s _
  | _ => rfl

theorem Meaning.x_of_not_written (hop : op ∉ [.ldx, .tax, .tsx, .inx, .dex]) : (f s).x = s.x := by
  cases hm with
  | ldx | tax | tsx | inx | dex => exact absurd (by decide) hop
  | brk => exact State.enterTrap_x s _
  | _ => rfl

theorem Meaning.y_of_not_written (hop : op ∉ [.ldy, .tay, .iny, .dey]) : (f s).y = s.y := by
  cases hm with
  | ldy | tay | iny | dey => exact absurd (by decide) hop
  | brk => exact State.enterTrap_y s _
  | _ => rfl

theorem Meaning.sp_of_not_written (hop : op ∉ [.txs, .pha, .php, .pla, .plp, .jsr, .rts, .brk, .rti]) :
    (f s).sp = s.sp := by
  cases hm with
  | txs | pha | php | pla | plp | jsr | rts | brk | rti => exact absurd (by decide) hop
  | _ => rfl

/-- Outside the jumps, the branches, BRK and RTI, PC moves past the instruction (R26). -/
theorem Meaning.pc_of_not_control
    (hop : op ∉ [.jmp, .jsr, .rts, .bcc, .bcs, .beq, .bne, .bmi, .bpl, .bvc, .bvs, .brk, .rti]) :
    (f s).pc = s.pc + BitVec.ofNat 16 opd.mode.length := by
  cases hm with
  | jmpAbs | jmpInd | jsr | rts | bcc | bcs | beq | bne | bmi | bpl | bvc | bvs | brk | rti =>
    exact absurd (by decide) hop
  | _ => rfl

end Registers

/-- The eight operations with a relative operand branch on their condition (R214 to R222). -/
theorem Meaning.eq_branchIf {op : Operation} {off : Byte} {f : State → State} (hm : Meaning op (.relative off) f)
    (s : State) : f s = branchIf (branchTaken op s.p) off s := by
  cases hm <;> rfl

/-- The target of a branch in numbers (R134). -/
theorem branchTarget_toNat (s : State) (off : Byte) :
    ((branchTarget s off).toNat : Int) = (s.pc.toNat + 2 + off.toInt) % 65536 := by
  rw [branchTarget, sext8, BitVec.signExtend, BitVec.toNat_add, BitVec.toNat_add, BitVec.toNat_ofInt]
  have htwo : (2 : Addr).toNat = 2 := rfl
  omega

/-- PC after a branch, in numbers (R214). -/
theorem branchIf_pc_toNat (cond : Bool) (s : State) (off : Byte) :
    ((branchIf cond off s).pc.toNat : Int) =
      if cond then (s.pc.toNat + 2 + off.toInt) % 65536 else (s.pc.toNat + 2) % 65536 := by
  cases cond with
  | true => exact branchTarget_toNat s off
  | false =>
    have h : (branchIf false off s).pc.toNat = (s.pc.toNat + 2) % 65536 := BitVec.toNat_add s.pc 2
    simp [h]

end Sys2Proof.Machine
end

section
/-! PROOFS. The obligations about the state (10_state.md). -/

namespace Sys2Proof.Machine

/-- Settles O8: the memory after reset lists nothing, and the Reset entry leaves the memory as it is. -/
theorem resetMemoryCanonical : Obligations.ResetMemoryCanonical :=
  ⟨State.reset_memory_wf, fun _ _ h => h⟩

/-- Settles O10, with the byte that nothing lists. -/
theorem resetStateOfTheModel : Obligations.ResetStateOfTheModel :=
  ⟨State.reset_eq_resetEntry, rfl, rfl, fun addr => Memory.readByte_nil addr.toNat⟩

/-- Settles O11, by the bits of the byte; the pushed byte is such a byte too. -/
theorem statusByteLayout : Obligations.StatusByteLayout := by
  intro p
  refine ⟨p.toByte_bits, ?_⟩
  rw [Status.pushed_eq_toByte]
  exact Status.toByte_bits _

/-- Settles O15: the flags that R37 does not list are taken from the start state. -/
theorem flagsUnchangedUnlessListed : Obligations.FlagsUnchangedUnlessListed := by
  intro i s t g h hg
  obtain ⟨f, hm, rfl, -⟩ := exec_next_cases h
  exact hm.get_of_not_written s hg

/-- Settles O12, by the frame of the flags: no row of R37 lists B or U. -/
theorem liveBreakAndUnusedAreNeverWritten : Obligations.LiveBreakAndUnusedAreNeverWritten := by
  intro s t h
  obtain ⟨i, -, h⟩ := step_next_iff.1 h
  have hbu := b_u_unseen_and_unwritten i.operation
  exact ⟨flagsUnchangedUnlessListed i s t .b h (hbu .b (by decide)).2,
    flagsUnchangedUnlessListed i s t .u h (hbu .u (by decide)).2⟩

/-- Settles O13: no operation sees or writes B or U, so each of the two can be replaced before the step or after it. -/
theorem liveBreakAndUnusedAreUnobservable : Obligations.LiveBreakAndUnusedAreUnobservable := by
  intro s t b u h
  obtain ⟨i, hi, h⟩ := step_next_iff.1 h
  obtain ⟨f, hm, rfl, hf⟩ := exec_next_cases h
  obtain ⟨hseen, hwritten⟩ := b_u_unseen_and_unwritten i.operation .b (by decide)
  obtain ⟨hseen', hwritten'⟩ := b_u_unseen_and_unwritten i.operation .u (by decide)
  have hb := hm.run_put_unwritten s hseen hwritten b
  have hu := hm.run_put_unwritten (s.withP (s.p.put .b b)) hseen' hwritten' u
  rw [hb] at hu
  exact step_next_iff.2 ⟨i, hi, (hf _).trans (congrArg _ hu)⟩

/-- Settles O14: an operation that does not see a flag runs alike without it; ADC and SBC see D in their adder; PHP and
BRK see both flags in the byte they push. -/
theorem interruptAndDecimalFlagsInfluenceOnly : Obligations.InterruptAndDecimalFlagsInfluenceOnly := by
  intro i s t w h
  obtain ⟨f, hm, rfl, hf⟩ := exec_next_cases h
  refine ⟨fun hop => ?_, fun hop => ?_, fun hop => ?_, fun slot hslot => ?_⟩
  · exact ⟨_, hf _, hm.eq_but_for_put s (g := .i) (mt (i_mem_flagsSeen_iff _).1 hop) w⟩
  · exact ⟨_, hf _, hm.eq_but_for_put s (g := .d) (mt (d_mem_flagsSeen_iff _).1 hop) w⟩
  · exact ⟨_, hf _, hm.eq_but_for_adder_outputs s hop w⟩
  · exact ⟨push_status_eq_but_for_put hslot h .i w, push_status_eq_but_for_put hslot h .d w⟩

/-- Settles O16, register by register. -/
theorem registersUnchangedUnlessListed : Obligations.RegistersUnchangedUnlessListed := by
  intro i s t h
  obtain ⟨f, hm, rfl, -⟩ := exec_next_cases h
  refine ⟨fun ha => ?_, fun hx => ?_, fun hy => ?_, fun hs => ?_⟩
  · obtain ⟨hop, hopd⟩ := Bool.or_eq_false_iff.1 ha
    exact hm.a_of_not_written s (of_decide_eq_false hop) (of_decide_eq_false hopd)
  · exact hm.x_of_not_written s (of_decide_eq_false hx)
  · exact hm.y_of_not_written s (of_decide_eq_false hy)
  · exact hm.sp_of_not_written s (of_decide_eq_false hs)

/-- Settles O18: the common case by the rows, the others by their own. -/
theorem programCounterAfterEachInstruction : Obligations.ProgramCounterAfterEachInstruction := by
  intro i s t h
  refine ⟨?next, ?jmpAbs, ?jmpInd, ?jsr, ?rts, ?branch, ?brk, ?rti⟩
  case next =>
    intro hop
    obtain ⟨f, hm, rfl, -⟩ := exec_next_cases h
    rw [hm.pc_of_not_control s hop, BitVec.toNat_add, BitVec.toNat_ofNat, Nat.add_mod_mod]
    rfl
  case branch =>
    intro off hoff
    obtain ⟨f, hm, rfl, -⟩ := exec_next_cases h
    rw [hoff] at hm
    rw [hm.eq_branchIf s, branchIf_pc_toNat]
  case jmpAbs | jsr =>
    rintro w rfl
    cases h
    exact BitVec.add_zero w
  case jmpInd =>
    rintro w rfl
    cases h
    rfl
  case rts =>
    rintro rfl
    cases h
    exact BitVec.toNat_add s.pop16.1 1
  case brk =>
    rintro rfl
    cases h
    exact State.enterTrap_pc_before_pushes s _
  case rti =>
    rintro rfl
    cases h
    rfl

end Sys2Proof.Machine
end

section
/-! SUPPORT. What an instruction stores, said once: its memory afterwards is that of the writes of `storedCells`, so a
read and the canonical form follow from those writes (20_memory.md R52, R57, R65). -/

namespace Sys2Proof.Machine

/-! ### Writing a list of cells -/

/-- The bytes written one after the other (R57). -/
def State.writeCells (s : State) (cells : List (Addr × Byte)) : State :=
  cells.foldl (fun t c => t.write c.1 c.2) s

@[simp] theorem State.writeCells_nil (s : State) : s.writeCells [] = s := rfl

@[simp] theorem State.writeCells_cons (s : State) (c : Addr × Byte) (cells : List (Addr × Byte)) :
    s.writeCells (c :: cells) = (s.write c.1 c.2).writeCells cells := rfl

/-- Writes keep the canonical form. -/
theorem State.writeCells_wf {s : State} (h : Memory.wf s.mem = true) (cells : List (Addr × Byte)) :
    Memory.wf (s.writeCells cells).mem = true := by
  induction cells generalizing s with
  | nil => exact h
  | cons c cells ih => exact ih (State.write_wf h c.1 c.2)

/-- The state under the list counts only by its byte at the address. -/
theorem byteOver_congr {s t : State} {addr : Addr} (h : s.read addr = t.read addr) (cells : List (Addr × Byte)) :
    byteOver cells s addr = byteOver cells t addr := by
  induction cells with
  | nil => exact h
  | cons c cells ih => rw [byteOver, byteOver, ih]

/-- At distinct addresses the order of the writes does not matter: each byte of the list reads back. -/
theorem State.read_writeCells {cells : List (Addr × Byte)} (h : (cells.map Prod.fst).Nodup) (s : State)
    (addr : Addr) : (s.writeCells cells).read addr = byteOver cells s addr := by
  induction cells generalizing s with
  | nil => rfl
  | cons c cells ih =>
    obtain ⟨hc, hcells⟩ := List.nodup_cons.1 h
    rw [State.writeCells_cons, ih hcells, byteOver]
    split
    · next haddr => rw [byteOver_of_not_mem _ (haddr ▸ hc), State.read_write, if_pos haddr]
    · next haddr => exact byteOver_congr ((State.read_write s _ _ _).trans (if_neg haddr)) cells

/-! ### The bytes of the shifts and rotates, in numbers (R197 to R200) -/

theorem aslByte_fst (v : Byte) (c : Bool) : (aslByte v c).1 = BitVec.ofNat 8 (2 * v.toNat) := by
  apply BitVec.eq_of_toNat_eq
  simp [aslByte, Nat.shiftLeft_eq, Nat.mul_comm]

theorem lsrByte_fst (v : Byte) (c : Bool) : (lsrByte v c).1 = BitVec.ofNat 8 (v.toNat / 2) := by
  apply BitVec.eq_of_toNat_eq
  have hlt : v.toNat / 2 < 256 := by omega
  simp [lsrByte, Nat.shiftRight_eq_div_pow, Nat.mod_eq_of_lt hlt]

/-- The carry enters below the shifted bits, checked on all 512 inputs. -/
theorem rolByte_fst (v : Byte) (c : Bool) : (rolByte v c).1 = BitVec.ofNat 8 (2 * v.toNat + c.toNat) := by
  revert v c
  decide

/-- The carry enters above the shifted bits, checked on all 512 inputs. -/
theorem rorByte_fst (v : Byte) (c : Bool) : (rorByte v c).1 = BitVec.ofNat 8 (v.toNat / 2 + 128 * c.toNat) := by
  revert v c
  decide

/-! ### What each instruction stores -/

/-- The effective address of an absolute operand is its word (R128). -/
@[simp] theorem effAddr_abs (w : Addr) (s : State) : effAddr (.abs w) s = w := BitVec.add_zero w

/-- Three pushes in a row use three slots, also where S wraps (R58). -/
theorem stackAddr_three_nodup (i : Byte) : [stackAddr i, stackAddr (i - 1), stackAddr (i - 2)].Nodup := by
  simp only [List.nodup_cons, List.mem_cons, List.not_mem_nil, stackAddr_inj, or_false, not_false_eq_true,
    List.nodup_nil, and_true]
  bv_omega

/-- No instruction stores to one address twice. -/
theorem storedAddrs_nodup (i : Instr) (s : State) : (storedAddrs i s).Nodup := by
  have hbrk := stackAddr_three_nodup s.sp
  have hjsr : [stackAddr s.sp, stackAddr (s.sp - 1)].Nodup := hbrk.sublist (by simp)
  unfold storedAddrs
  split <;> simp only [hjsr, hbrk, List.nodup_singleton, List.nodup_nil]

/-- The memory after an instruction is that of the writes of its stored cells, and of nothing else (R52). -/
theorem Meaning.mem_eq_writeCells {i : Instr} {f : State → State} (hm : Meaning i.operation i.operand f) (s : State) :
    (f s).mem = (s.writeCells (storedCells i s)).mem := by
  unfold storedCells
  generalize i.operation = op, i.operand = opd at hm
  cases hm with
  | sta | stx | sty | inc | dec => rfl
  | aslMem m => simp [shiftMem, aslByte_fst, storedByte]
  | lsrMem m => simp [shiftMem, lsrByte_fst, storedByte]
  | rolMem m => simp [shiftMem, rolByte_fst, storedByte]
  | rorMem m => simp [shiftMem, rorByte_fst, storedByte]
  | brk =>
    have hsp : s.sp - 1 - 1 = s.sp - 2 := by bv_omega
    simp only [State.enterTrap_mem, State.push8_mem, State.push16_sp, hsp]
    rfl
  | adc src | sbc src | and src | ora src | eor src | cmp src | cpx src | cpy src | bit src | lda src | ldx src
  | ldy src => cases src <;> rfl
  | _ => rfl

theorem exec_mem_eq_writeCells {i : Instr} {s t : State} (h : exec i s = .next t) :
    t.mem = (s.writeCells (storedCells i s)).mem := by
  obtain ⟨f, hm, rfl, -⟩ := exec_next_cases h
  exact hm.mem_eq_writeCells s

/-- A byte read after an instruction is the one it stores there, or else the one of before (R65). -/
theorem read_eq_byteAfter {i : Instr} {s t : State} (h : exec i s = .next t) (addr : Addr) :
    t.read addr = byteAfter i s addr := by
  have hnodup : ((storedCells i s).map Prod.fst).Nodup := storedCells_addrs i s ▸ storedAddrs_nodup i s
  exact (State.read_congr (exec_mem_eq_writeCells h) addr).trans (State.read_writeCells hnodup s addr)

end Sys2Proof.Machine
end

section
/-! PROOFS. The obligations about the memory (20_memory.md). -/

namespace Sys2Proof.Machine

/-- Settles O7: the memory of a next state comes from that of the state by writes. -/
theorem stepKeepsMemoryCanonical : Obligations.StepKeepsMemoryCanonical := by
  intro s t hs h
  obtain ⟨i, -, h⟩ := step_next_iff.1 h
  exact (congrArg Memory.wf (exec_mem_eq_writeCells h)).trans (State.writeCells_wf hs _)

/-- Settles O17: the stored cells lie at the stored addresses. -/
theorem memoryUnchangedOutsideStoredBytes : Obligations.MemoryUnchangedOutsideStoredBytes := by
  intro i s t addr h haddr
  rw [read_eq_byteAfter h, byteAfter_of_not_stored haddr]

/-- Settles O51: the two slots are distinct for every S, as S - 1 is never S in a byte. -/
theorem popOfPushReturnsTheWord : Obligations.PopOfPushReturnsTheWord := by
  intro s w
  simp only [← stackAddr_eq, List.mem_cons, List.not_mem_nil, or_false, not_or]
  have hne : stackAddr s.sp ≠ stackAddr (s.sp - 1) := fun h => by have := stackAddr_inj.1 h; bv_omega
  have hhigh : (s.push16 w).read (stackAddr s.sp) = hi8 w := by
    rw [State.read_push16, if_neg hne, if_pos rfl]
  have hlow : (s.push16 w).read (stackAddr (s.sp - 1)) = lo8 w := by
    rw [State.read_push16, if_pos rfl]
  have hlowSlot : (s.push16 w).sp + 1 = s.sp - 1 := by rw [State.push16_sp]; bv_omega
  have hhighSlot : s.sp - 1 + 1 = s.sp := by bv_omega
  refine ⟨hhigh, hlow, fun addr haddr => ?_, ?_, ?_, ?_⟩
  · rw [State.read_push16, if_neg haddr.2, if_neg haddr.1]
  · rw [State.push16_sp]
    bv_omega
  · rw [State.pop16_value, hlowSlot, hhighSlot, hhigh, hlow, joinBytes_halves]
  · rw [State.pop16_state, hlowSlot, hhighSlot]

/-- Settles O57: the fetch reads memory alone, and every byte of it is `byteAfter`. -/
theorem storesAreSeenByTheNextFetch : Obligations.StoresAreSeenByTheNextFetch := by
  refine ⟨fun i s => ?_, fun w s => ⟨_, rfl, ?_⟩⟩
  · obtain ⟨f, -, hf⟩ := exec_eq_meaning i
    have hread := read_eq_byteAfter (hf s)
    refine ⟨f s, hf s, hread, ?_, fun j => step_of_fetch_some, fun hnone => ?_⟩
    · simp only [fetchInstr, fetchOpcode, hread]
    · rw [step_of_fetch_none hnone, fetchOpcode, hread]
  · have hread (addr : Addr) : (storeOp (.abs w) s.a s).read addr = if addr = w then s.a else s.read addr := by
      simp [storeOp]
    have hpc : (storeOp (.abs w) s.a s).pc = s.pc + 3 := rfl
    simp only [fetchInstr, fetchOpcode, hread, hpc, BitVec.add_assoc]
    rfl

end Sys2Proof.Machine
end

section
/-! SUPPORT. The decoder and the decode table, said once: which bytes decode to which instruction, and that the table of
R87 agrees with the encoder's opcodes of R88 and with the undefined bytes of R90 (30_encoding.md R80 to R91). -/

namespace Sys2Proof

/-- The two operand bytes of the word that the decoder joins from them (R82, R84). -/
@[simp] theorem wordBytes_joinBytes (hi lo : Byte) : wordBytes (joinBytes hi lo) = [lo, hi] := by
  simp [wordBytes]

/-- The operand bytes that a builder takes, and the instruction that it makes of them (R82, R84). -/
inductive Builder.Makes : Builder → List Byte → Instr → Prop where
  | noOperand (i : Instr) : Makes (.noOperand i) [] i
  | byteOperand (f : Byte → Instr) (b : Byte) : Makes (.byteOperand f) [b] (f b)
  | wordOperand (f : Addr → Instr) (w : Addr) : Makes (.wordOperand f) (wordBytes w) (f w)

/-- The decoder looks up the first byte and gives its builder the operand bytes; it drops and reorders nothing (R83). -/
theorem decode_eq_instr_iff {bs : List Byte} {i : Instr} {rest : List Byte} :
    decode bs = .instr i rest ↔
      ∃ op d bytes, descriptor op = some d ∧ d.builder.Makes bytes i ∧ bs = op :: (bytes ++ rest) := by
  constructor
  · intro h
    cases bs with
    | nil => cases h
    | cons op bs =>
      cases hd : descriptor op with
      | none => simp [decode, hd] at h
      | some d =>
        refine ⟨op, d, ?_⟩
        obtain ⟨_, _, _, _, builder⟩ := d
        simp only [decode, hd] at h
        cases builder with
        | noOperand i =>
          cases h
          exact ⟨[], hd, .noOperand i, rfl⟩
        | byteOperand f =>
          match bs, h with
          | b :: _, rfl => exact ⟨[b], hd, .byteOperand f b, rfl⟩
        | wordOperand f =>
          match bs, h with
          | lo :: hi :: _, rfl => exact ⟨_, hd, .wordOperand f (joinBytes hi lo), by simp⟩
  · rintro ⟨op, ⟨_, _, _, _, builder⟩, bytes, hd, hmakes, rfl⟩
    cases hmakes <;> simp [decode, hd, wordBytes]

/-- The row of an instruction's opcode makes the instruction from its operand bytes, and makes only instructions that
encode as that opcode and the bytes they are made from: R87 against R88, row by row. -/
theorem descriptor_opcode (i : Instr) :
    ∃ d, descriptor i.opcode = some d ∧ d.builder.Makes i.operand.bytes i ∧
      ∀ bytes j, d.builder.Makes bytes j → encode j = i.opcode :: bytes := by
  cases i
  all_goals
    refine ⟨_, rfl, ?_, fun bytes j h => ?_⟩
    · constructor
    · cases h
      rfl

/-- Every described byte is the opcode of an instruction, checked on all 256 bytes. -/
theorem exists_opcode_eq {op : Byte} {d : Descriptor} (h : descriptor op = some d) : ∃ i : Instr, i.opcode = op := by
  have hall : ∀ op, (descriptor op).all (fun d => (d.builder.build 0 0).opcode == op) := by decide
  exact ⟨d.builder.build 0 0, by simpa [h] using hall op⟩

/-- What the row of a byte makes encodes as that byte and the operand bytes. -/
theorem encode_of_makes {op : Byte} {d : Descriptor} (hd : descriptor op = some d) {bytes : List Byte} {i : Instr}
    (h : d.builder.Makes bytes i) : encode i = op :: bytes := by
  obtain ⟨j, rfl⟩ := exists_opcode_eq hd
  obtain ⟨d', hd', -, hencode⟩ := descriptor_opcode j
  cases hd.symm.trans hd'
  exact hencode bytes i h

/-- The table has no row for the bytes that R90 lists, and for no other, checked on all 256 bytes. -/
theorem descriptor_eq_none_iff (op : Byte) : descriptor op = none ↔ op ∈ Machine.undefinedOpcodeBytes := by
  have hall : ∀ op, (descriptor op).isNone = decide (op ∈ Machine.undefinedOpcodeBytes) := by decide
  rw [← Option.isNone_iff_eq_none, hall, decide_eq_true_iff]

end Sys2Proof

namespace Sys2Proof.Machine

/-- Only the opcode byte decides whether there is an instruction at PC (R90, R103). -/
theorem fetchInstr_eq_none_iff (s : State) : fetchInstr s = none ↔ s.read s.pc ∈ undefinedOpcodeBytes :=
  Option.map_eq_none_iff.trans (descriptor_eq_none_iff _)

theorem stepCycles_of_fetch_none {s : State} (h : fetchInstr s = none) : stepCycles s = 0 := by
  rw [stepCycles, h]

end Sys2Proof.Machine
end

section
/-! PROOFS. The obligations about the encoding (30_encoding.md). -/

namespace Sys2Proof.Machine

/-- Settles O4: the row of the encoder's opcode makes the instruction from its operand bytes. -/
theorem decodeOfEncodeIsTheInstruction : Obligations.DecodeOfEncodeIsTheInstruction := by
  intro i rest
  obtain ⟨d, hd, hmakes, -⟩ := descriptor_opcode i
  exact decode_eq_instr_iff.2 ⟨i.opcode, d, i.operand.bytes, hd, hmakes, rfl⟩

/-- Settles O5: the decoder splits the bytes into an opcode, operand bytes and the rest, and the first two are the
encoding of what the opcode's row makes of them. -/
theorem encodeOfDecodeIsTheBytes : Obligations.EncodeOfDecodeIsTheBytes := by
  intro bs i rest h
  obtain ⟨op, d, bytes, hd, hmakes, rfl⟩ := decode_eq_instr_iff.1 h
  rw [encode_of_makes hd hmakes, List.cons_append]

/-- Settles O2: the listed bytes are those with no instruction at PC, and every instruction completes. -/
theorem undefinedBytesFaultAndOthersRun : Obligations.UndefinedBytesFaultAndOthersRun := by
  intro s
  rw [← fetchInstr_eq_none_iff]
  refine ⟨fun hnone => ⟨step_of_fetch_none hnone, stepCycles_of_fetch_none hnone⟩, fun hsome => ?_⟩
  obtain ⟨i, hi⟩ := Option.ne_none_iff_exists'.1 hsome
  obtain ⟨f, -, hf⟩ := exec_eq_meaning i
  exact ⟨f s, (step_of_fetch_some hi).trans (hf s)⟩

/-- Settles O6, by running the decoder on each of the words. -/
theorem specWordsDecode : Obligations.SpecWordsDecode := by
  unfold Obligations.SpecWordsDecode
  decide

end Sys2Proof.Machine
end

section
/-! SUPPORT. What an instruction costs and what `Execute` can answer, said once: the bounds of the cycle count and what it
depends on, one equation per case of the loop, and the answers of a call (40_execute_dispatch.md R100 to R111). -/

namespace Sys2Proof.Machine

/-! ### The cycle count (R104) -/

/-- The most that a mark adds to the base cycles (R104). -/
def maxPenalty : Penalty → Nat
  | .fixed => 0
  | .pageCross => 1
  | .branch => 2

theorem oneIf_le_one (b : Bool) : oneIf b ≤ 1 := by
  cases b <;> decide

theorem branchPenalty_le_two (op : Operation) (off : Byte) (s : State) : branchPenalty op off s ≤ 2 := by
  have hcross := oneIf_le_one (branchCrossed s off)
  unfold branchPenalty
  split <;> omega

theorem penaltyCycles_le_maxPenalty (mark : Penalty) (i : Instr) (s : State) :
    penaltyCycles mark i s ≤ maxPenalty mark := by
  unfold penaltyCycles
  split
  · exact oneIf_le_one _
  · exact branchPenalty_le_two _ _ s
  · exact Nat.zero_le _

/-- The count is the base of the opcode's row and the penalty of its mark. -/
theorem cycles_eq_base_add_penalty (i : Instr) :
    ∃ d, descriptor i.opcode = some d ∧ ∀ s, cycles i s = d.baseCycles + penaltyCycles d.penalty i s := by
  obtain ⟨d, hd, -, -⟩ := descriptor_opcode i
  exact ⟨d, hd, fun s => by rw [cycles, hd]⟩

/-- Every row of the table costs at least 2 cycles, and with the most its mark adds at most 7, checked on all 256
bytes. -/
theorem descriptor_cycles_bounds {op : Byte} {d : Descriptor} (h : descriptor op = some d) :
    2 ≤ d.baseCycles ∧ d.baseCycles + maxPenalty d.penalty ≤ 7 := by
  have hall : ∀ op, (descriptor op).all
      (fun d => decide (2 ≤ d.baseCycles ∧ d.baseCycles + maxPenalty d.penalty ≤ 7)) := by decide
  simpa [h] using hall op

theorem cycles_bounds (i : Instr) (s : State) : 2 ≤ cycles i s ∧ cycles i s ≤ 7 := by
  obtain ⟨d, hd, hcycles⟩ := cycles_eq_base_add_penalty i
  obtain ⟨hlow, hhigh⟩ := descriptor_cycles_bounds hd
  have hpenalty := penaltyCycles_le_maxPenalty d.penalty i s
  rw [hcycles]
  omega

/-- Of A, S and the status, a penalty sees no more than the condition of a branch. -/
theorem penaltyCycles_congr (mark : Penalty) {i : Instr} {s : State} {p : Status}
    (h : ∀ off, i.operand = .relative off → branchTaken i.operation p = branchTaken i.operation s.p) (a sp : Byte) :
    penaltyCycles mark i { s with a := a, sp := sp, p := p } = penaltyCycles mark i s := by
  unfold penaltyCycles
  split
  next => rfl
  next off hoff =>
    simp only [branchPenalty, h off hoff]
    rfl
  next => rfl

theorem cycles_congr {i : Instr} {s : State} {p : Status}
    (h : ∀ off, i.operand = .relative off → branchTaken i.operation p = branchTaken i.operation s.p) (a sp : Byte) :
    cycles i { s with a := a, sp := sp, p := p } = cycles i s := by
  obtain ⟨d, -, hcycles⟩ := cycles_eq_base_add_penalty i
  rw [hcycles, hcycles, penaltyCycles_congr d.penalty h]

/-! ### What a step answers and charges (R101) -/

theorem stepCycles_of_fetch_some {s : State} {i : Instr} (h : fetchInstr s = some i) : stepCycles s = cycles i s := by
  rw [stepCycles, h]

theorem stepCycles_bounds {s t : State} (h : step s = .next t) : 2 ≤ stepCycles s ∧ stepCycles s ≤ 7 := by
  obtain ⟨i, hi, -⟩ := step_next_iff.1 h
  rw [stepCycles_of_fetch_some hi]
  exact cycles_bounds i s

/-- A step answers a next state, or UndefinedOpcode with PC and the byte there; it refuses nothing (R260, R261). -/
theorem step_cases (s : State) :
    (∃ t, step s = .next t) ∨
    (s.read s.pc ∈ undefinedOpcodeBytes ∧ step s = .fault (.undefinedOpcode s.pc (s.read s.pc))) := by
  obtain ⟨hfault, hrun⟩ := undefinedBytesFaultAndOthersRun s
  by_cases hop : s.read s.pc ∈ undefinedOpcodeBytes
  · exact .inr ⟨hop, (hfault hop).1⟩
  · exact .inl (hrun hop)

/-! ### The loop of `Execute` (R100) -/

theorem executeLoop_of_spent {budget used : Int} (h : budget ≤ used) (fuel : Nat) (s : State) :
    executeLoop fuel budget used s = .ok used s := by
  cases fuel with
  | zero => rfl
  | succ fuel => exact if_neg (by omega)

theorem executeLoop_of_next {budget used : Int} (h : used < budget) {s t : State} (hs : step s = .next t) (fuel : Nat) :
    executeLoop (fuel + 1) budget used s = executeLoop fuel budget (used + stepCycles s) t := by
  rw [executeLoop, if_pos (by omega), hs]

theorem executeLoop_of_undefined {budget used : Int} (h : used < budget) {s : State} {addr : Addr} {byte : Byte}
    (hs : step s = .fault (.undefinedOpcode addr byte)) (fuel : Nat) :
    executeLoop (fuel + 1) budget used s = .undefinedOpcode addr byte used s := by
  rw [executeLoop, if_pos (by omega), hs]

/-- What `Execute` can answer from the state `start`, with what holds of each answer; `execute_answers` ties it to
`execute`. -/
inductive ExecuteAnswers (budget : Int) (start : State) : ExecuteResult → Prop where
  /-- No step is made (R106). -/
  | idle (h : budget ≤ 0) : ExecuteAnswers budget start (.ok 0 start)
  /-- The budget is used up by whole steps (R105, R109). -/
  | ok {used : Int} {t : State} (hreach : Reaches start t) (hlow : budget ≤ used) (hhigh : used ≤ budget + 6) :
    ExecuteAnswers budget start (.ok used t)
  /-- Whole steps lead to an undefined byte (R111). -/
  | undefinedOpcode {used : Int} {t : State} (hreach : Reaches start t) (hop : t.read t.pc ∈ undefinedOpcodeBytes) :
    ExecuteAnswers budget start (.undefinedOpcode t.pc (t.read t.pc) used t)
  /-- The budget is out of range (R110). -/
  | refused (h : Config.maxBudget < budget) : ExecuteAnswers budget start (.refused .budgetTooLarge)

/-- A fuel of as many steps as cycles are left is never used up, as every step costs 2 cycles or more; the last step
starts below the budget and costs 7 at most. -/
theorem executeLoop_answers {budget used : Int} {fuel : Nat} {start s : State} (hreach : Reaches start s)
    (hfuel : budget - used ≤ fuel) (hused : used ≤ budget + 6) :
    ExecuteAnswers budget start (executeLoop fuel budget used s) := by
  induction fuel generalizing used s with
  | zero => exact .ok hreach (by omega) hused
  | succ fuel ih =>
    by_cases hspent : budget ≤ used
    · rw [executeLoop_of_spent hspent]
      exact .ok hreach hspent hused
    · have hleft : used < budget := not_le.1 hspent
      obtain ⟨t, hs⟩ | ⟨hop, hs⟩ := step_cases s
      · obtain ⟨hlow, hhigh⟩ := stepCycles_bounds hs
        rw [executeLoop_of_next hleft hs]
        exact ih (hreach.step hs) (by omega) (by omega)
      · rw [executeLoop_of_undefined hleft hs]
        exact .undefinedOpcode hreach hop

/-! ### A call of `Execute` (R100, R106, R107, R110) -/

theorem execute_of_too_large {b : BitVec 64} (h : Config.maxBudget < b.toInt) (s : State) :
    execute b s = .refused .budgetTooLarge := if_pos h

theorem execute_of_in_range {b : BitVec 64} (h : b.toInt ≤ Config.maxBudget) (s : State) :
    execute b s = executeLoop b.toInt.toNat b.toInt 0 s := if_neg (not_lt.2 h)

theorem execute_of_nonpos {b : BitVec 64} (h : b.toInt ≤ 0) (s : State) : execute b s = .ok 0 s := by
  rw [execute_of_in_range (h.trans (by decide)), executeLoop_of_spent h]

theorem execute_answers (b : BitVec 64) (s : State) : ExecuteAnswers b.toInt s (execute b s) := by
  obtain hmax | hmax := lt_or_ge Config.maxBudget b.toInt
  · rw [execute_of_too_large hmax]
    exact .refused hmax
  · obtain hneg | hpos := le_or_gt b.toInt 0
    · rw [execute_of_nonpos hneg]
      exact .idle hneg
    · rw [execute_of_in_range hmax]
      exact executeLoop_answers (.refl s) (by omega) (by omega)

/-- A positive budget lets the loop test a first step. -/
theorem execute_of_pos {b : BitVec 64} (hpos : 0 < b.toInt) (hmax : b.toInt ≤ Config.maxBudget) (s : State) :
    ∃ fuel, execute b s = executeLoop (fuel + 1) b.toInt 0 s :=
  ⟨b.toInt.toNat - 1, by rw [execute_of_in_range hmax, Nat.sub_add_cancel (by omega)]⟩

/-- A budget that one step uses up runs one step (R107). -/
theorem execute_of_next {b : BitVec 64} (hpos : 0 < b.toInt) (hle : b.toInt ≤ 2) {s t : State}
    (hs : step s = .next t) : execute b s = .ok (stepCycles s) t := by
  obtain ⟨fuel, hloop⟩ := execute_of_pos hpos (hle.trans (by decide)) s
  obtain ⟨hlow, -⟩ := stepCycles_bounds hs
  rw [hloop, executeLoop_of_next hpos hs, zero_add, executeLoop_of_spent (by omega)]

/-- At an undefined byte no budget runs a step (R111, R263). -/
theorem execute_of_undefined {b : BitVec 64} (hpos : 0 < b.toInt) (hmax : b.toInt ≤ Config.maxBudget) {s : State}
    {addr : Addr} {byte : Byte} (hs : step s = .fault (.undefinedOpcode addr byte)) :
    execute b s = .undefinedOpcode addr byte 0 s := by
  obtain ⟨fuel, hloop⟩ := execute_of_pos hpos hmax s
  rw [hloop, executeLoop_of_undefined hpos hs]

end Sys2Proof.Machine
end

section
/-! PROOFS. The obligations about the step, the cycle count and `Execute` (40_execute_dispatch.md). -/

namespace Sys2Proof.Machine

/-- Settles O52: of the answers to a positive budget, Ok carries both bounds. -/
theorem executeOverrunsByAtMostSix : Obligations.ExecuteOverrunsByAtMostSix := by
  intro b s used s' h hpos
  have hans := execute_answers b s
  rw [h] at hans
  cases hans with
  | idle hneg => exact absurd hneg (not_le.2 hpos)
  | ok _ hlow hhigh => exact ⟨hlow, hhigh⟩

/-- Settles O53: only a budget above the largest is answered by a refusal. -/
theorem executeOutsideItsRangeDoesNothing : Obligations.ExecuteOutsideItsRangeDoesNothing := by
  intro b s
  refine ⟨fun hneg => execute_of_nonpos hneg s, fun hmax => execute_of_too_large hmax s, fun hle r h => ?_⟩
  have hans := execute_answers b s
  rw [h] at hans
  cases hans with
  | refused hmax => exact absurd hle (not_le.2 hmax)

/-- Settles O54: one step costs 2 cycles at least, and so uses up both budgets. -/
theorem executeOneIsOneStep : Obligations.ExecuteOneIsOneStep := fun _ =>
  ⟨fun _ hs => ⟨execute_of_next (by decide) (by decide) hs, execute_of_next (by decide) (by decide) hs⟩,
    fun _ _ hs => ⟨execute_of_undefined (by decide) (by decide) hs, execute_of_undefined (by decide) (by decide) hs⟩⟩

/-- Settles O55: the error's state is at an undefined byte, and from there every call fails at once. -/
theorem executeStopsAtABoundaryAndRepeatsTheError : Obligations.ExecuteStopsAtABoundaryAndRepeatsTheError := by
  intro b s
  have hans := execute_answers b s
  refine ⟨fun used s' h => ?_, fun addr byte used s' h => ?_⟩
  · rw [h] at hans
    cases hans with
    | idle _ => exact .refl s
    | ok hreach _ _ => exact hreach
  · rw [h] at hans
    cases hans with
    | undefinedOpcode hreach hop =>
      have hstep := ((undefinedBytesFaultAndOthersRun s').1 hop).1
      exact ⟨hreach, rfl, rfl, hop, fun b' hpos hmax => execute_of_undefined hpos hmax hstep⟩

/-- Settles O56: outside the branches the condition is about nothing. -/
theorem cycleCountsLieBetweenTwoAndSeven : Obligations.CycleCountsLieBetweenTwoAndSeven :=
  ⟨cycles_bounds, fun _ _ a sp _ hno => cycles_congr (fun off hoff => absurd hoff (hno off)) a sp,
    fun _ _ a sp _ _ _ htaken => cycles_congr (fun _ _ => htaken) a sp⟩

/-- Settles O1: the list decoder finds at PC what the fetch finds, and every instruction completes. -/
theorem stepRunsDecodedInstruction : Obligations.StepRunsDecodedInstruction := by
  intro s
  obtain ⟨hnone, hdecode⟩ | ⟨j, rest, hsome, hdecode⟩ :=
    decode_cons_cons (s.read s.pc) (s.read (s.pc + 1)) (s.read (s.pc + 2)) []
  · rw [hdecode]
    refine ⟨nofun, fun op h => ?_, nofun⟩
    cases h
    exact ⟨rfl, step_of_fetch_none hnone, stepCycles_of_fetch_none hnone⟩
  · rw [hdecode]
    refine ⟨fun i _ h => ?_, nofun, nofun⟩
    cases h
    obtain ⟨f, -, hf⟩ := exec_eq_meaning j
    exact ⟨step_of_fetch_some hsome, ⟨f s, hf s⟩, stepCycles_of_fetch_some hsome⟩

end Sys2Proof.Machine
end

section
/-! SUPPORT. The addressing modes in numbers, said once: the modes that add an index to a 16-bit base, the modes that add
none, and the pointer read of page zero (41_addressing_modes.md R120 to R132; 20_memory.md R63). -/

namespace Sys2Proof.Machine

/-! ### The index addition (R120, R121) -/

theorem effAddr_toNat (m : MemOperand) (s : State) :
    (effAddr m s).toNat = ((baseAddr m s).toNat + (baseIndex m s).toNat) % 65536 :=
  BitVec.toNat_add _ _

theorem hi8_eq_iff {v w : Addr} : hi8 v = hi8 w ↔ v.toNat / 256 = w.toNat / 256 := by
  rw [← BitVec.toNat_inj, hi8_toNat, hi8_toNat]

theorem pageCrossed_iff (m : MemOperand) (s : State) :
    pageCrossed m s = true ↔
      ((baseAddr m s).toNat + (baseIndex m s).toNat) % 65536 / 256 ≠ (baseAddr m s).toNat / 256 := by
  rw [pageCrossed, bne_iff_ne, Ne, hi8_eq_iff, effAddr_toNat]

/-- A register widened to the addend of an address keeps its value. -/
theorem zeroExtend_toNat (r : Byte) : (r.zeroExtend 16).toNat = r.toNat :=
  BitVec.toNat_setWidth_of_le (by decide)

/-- The index is a register or nothing, so it is below 256. -/
theorem baseIndex_lt (m : MemOperand) (s : State) : (baseIndex m s).toNat < 256 := by
  cases m with
  | absX _ => exact (zeroExtend_toNat s.x).trans_lt s.x.isLt
  | absY _ | indY _ => exact (zeroExtend_toNat s.y).trans_lt s.y.isLt
  | zp _ | zpX _ | zpY _ | abs _ | indX _ => exact Nat.zero_lt_succ 255

/-- Adding less than 256 mod 65536 changes the high byte exactly when the low bytes carry; at the top of memory the high
byte goes from 255 to 0 (R121). -/
theorem high_byte_changes_iff_low_byte_carries {base index : Nat} (hbase : base < 65536) (hindex : index < 256) :
    (base + index) % 65536 / 256 ≠ base / 256 ↔ base % 256 + index > 0xFF := by
  omega

/-! ### The modes by what they add -/

/-- A mode that adds an index, by the numbers it adds (R129, R130, R132). -/
theorem indexed_mode {m : MemOperand} {s : State} {base index : Nat} (hbase : (baseAddr m s).toNat = base)
    (hindex : (baseIndex m s).toNat = index) :
    (effAddr m s).toNat = (base + index) % 65536 ∧
    pageCrossed m s = decide ((base + index) % 65536 / 256 ≠ base / 256) := by
  subst hbase hindex
  exact ⟨effAddr_toNat m s, Bool.eq_iff_iff.2 ((pageCrossed_iff m s).trans decide_eq_true_iff.symm)⟩

/-- A mode that adds no index never crosses (R126 to R128, R131). -/
theorem unindexed_mode {m : MemOperand} {s : State} (h : baseIndex m s = 0) :
    effAddr m s = baseAddr m s ∧ pageCrossed m s = false := by
  have heff : effAddr m s = baseAddr m s := by rw [effAddr, h, BitVec.ofNat_eq_ofNat, BitVec.add_zero]
  exact ⟨heff, by rw [pageCrossed, heff, bne_self_eq_false]⟩

/-- The modes that stay in page zero, by the byte they address (R126, R127). -/
theorem zero_page_mode {m : MemOperand} {s : State} {z : Byte} (hbase : baseAddr m s = zeroPageAddr z)
    (hindex : baseIndex m s = 0) : (effAddr m s).toNat = z.toNat ∧ pageCrossed m s = false := by
  obtain ⟨heff, hcross⟩ := unindexed_mode hindex
  exact ⟨by rw [heff, hbase, zeroPageAddr_toNat], hcross⟩

/-! ### The pointer in page zero (R63) -/

theorem zeroPageAddr_eq_ofNat (z : Byte) : zeroPageAddr z = BitVec.ofNat 16 z.toNat :=
  BitVec.eq_of_toNat_eq (by rw [zeroPageAddr_toNat, BitVec.toNat_ofNat]; omega)

/-- The pointer as a number: its high byte's address wraps inside page zero. -/
theorem State.zpRead16_toNat (s : State) (z : Byte) :
    (s.zpRead16 z).toNat =
      (s.read (BitVec.ofNat 16 z.toNat)).toNat + 256 * (s.read (BitVec.ofNat 16 ((z.toNat + 1) % 256))).toNat := by
  have hnext : (z + 1).toNat = (z.toNat + 1) % 256 := BitVec.toNat_add z 1
  rw [State.zpRead16, joinBytes_toNat, zeroPageAddr_eq_ofNat, zeroPageAddr_eq_ofNat, hnext, Nat.add_comm]

end Sys2Proof.Machine
end

section
/-! PROOFS. The obligations about the addressing modes (41_addressing_modes.md). -/

namespace Sys2Proof.Machine

/-- Settles O21: both modes read their pointer by R63, INDX at a sum of bytes; INDY alone adds an index to it. -/
theorem indirectModesReadTheirPointerInPageZero : Obligations.IndirectModesReadTheirPointerInPageZero := by
  intro z s pointer
  have hpointer (p : Byte) : (s.zpRead16 p).toNat = pointer p.toNat := s.zpRead16_toNat p
  obtain ⟨hx, hxCross⟩ := unindexed_mode (m := .indX z) (s := s) rfl
  have hxValue : (effAddr (.indX z) s).toNat = pointer ((z.toNat + s.x.toNat) % 256) := by
    rw [hx, ← BitVec.toNat_add z s.x]
    exact hpointer (z + s.x)
  exact ⟨hxValue, hxCross, indexed_mode (m := .indY z) (hpointer z) (zeroExtend_toNat s.y)⟩

/-- Settles O22: the index is below 256, so the high byte changes by the carry of the low byte alone. -/
theorem pageCrossingIsTheLowByteCarry : Obligations.PageCrossingIsTheLowByteCarry := fun m s =>
  ⟨effAddr_toNat m s, rfl,
    (pageCrossed_iff m s).trans (high_byte_changes_iff_low_byte_carries (baseAddr m s).isLt (baseIndex_lt m s))⟩

/-- Settles O19: the three modes address the zero page at a byte, for ZPX and ZPY a sum of bytes; the cells of the ZPY
column are those of LDX and STX. -/
theorem zeroPageModesWrapInPageZero : Obligations.ZeroPageModesWrapInPageZero := by
  refine ⟨fun z s => ?_, fun i z h => ?_⟩
  · obtain ⟨hz, hzCross⟩ := zero_page_mode (m := .zp z) (s := s) rfl rfl
    obtain ⟨hx, hxCross⟩ := zero_page_mode (m := .zpX z) (s := s) rfl rfl
    obtain ⟨hy, hyCross⟩ := zero_page_mode (m := .zpY z) (s := s) rfl rfl
    exact ⟨hz, hx.trans (BitVec.toNat_add z s.x), hy.trans (BitVec.toNat_add z s.y), hzCross, hxCross, hyCross⟩
  · cases i with
    | ldxZpY _ =>
      cases h
      exact .inl ⟨rfl, rfl⟩
    | stxZpY _ =>
      cases h
      exact .inr ⟨rfl, rfl⟩
    | _ => cases h

/-- Settles O20: ABS adds no index, ABSX and ABSY add theirs to the operand word. -/
theorem absoluteModesWrapAtTheTop : Obligations.AbsoluteModesWrapAtTheTop := by
  intro w s
  obtain ⟨hw, hwCross⟩ := unindexed_mode (m := .abs w) (s := s) rfl
  obtain ⟨hx, hxCross⟩ := indexed_mode (m := .absX w) rfl (zeroExtend_toNat s.x)
  obtain ⟨hy, hyCross⟩ := indexed_mode (m := .absY w) rfl (zeroExtend_toNat s.y)
  exact ⟨hw, hwCross, hx, hxCross, hy, hyCross⟩

end Sys2Proof.Machine
end

section
/-! SUPPORT. The reading instructions, said once: what an operation makes of the operand that it reads, what that costs,
and the cells of its row (30_encoding.md R88; 40_execute_dispatch.md R104, R300; 41_addressing_modes.md R135). -/

namespace Sys2Proof.Machine

/-- What each operation that reads one operand makes of it and the state. `Meaning.eq_reading` ties it to the rows of
`Meaning`. -/
def readingOp : Operation → Option (Source → State → State)
  | .adc => some addWithCarry
  | .sbc => some subWithCarry
  | .and => some (logicOp (· &&& ·))
  | .ora => some (logicOp (· ||| ·))
  | .eor => some (logicOp (· ^^^ ·))
  | .cmp => some fun src s => compareOp s.a src s
  | .cpx => some fun src s => compareOp s.x src s
  | .cpy => some fun src s => compareOp s.y src s
  | .bit => some bitTestOp
  | .lda => some loadA
  | .ldx => some loadX
  | .ldy => some loadY
  | _ => none

theorem Meaning.eq_reading {op : Operation} {opd : Operand} {f : State → State} (hm : Meaning op opd f)
    {g : Source → State → State} (h : readingOp op = some g) : ∃ src, opd = .source src ∧ f = g src := by
  cases hm with
  | adc src | sbc src | and src | ora src | eor src | cmp src | cpx src | cpy src | bit src | lda src | ldx src
  | ldy src =>
    cases h
    exact ⟨src, rfl, rfl⟩
  | _ => cases h

/-! ### The cost of a read (R300) -/

/-- The base cycles of a read by its mode, with the mark of the modes that pay for a page crossing (R300). The other
modes read no operand. -/
def readCost : Mode → Nat × Penalty
  | .immediate => (2, .fixed)
  | .zeroPage => (3, .fixed)
  | .zeroPageX | .zeroPageY | .absolute => (4, .fixed)
  | .absoluteX | .absoluteY => (4, .pageCross)
  | .indirectX => (6, .fixed)
  | .indirectY => (5, .pageCross)
  | .implied | .accumulator | .indirect | .relative => (0, .fixed)

/-- The table charges every reading operation by its mode, checked on all 256 bytes. -/
theorem descriptor_read_cost {op : Byte} {d : Descriptor} (h : descriptor op = some d)
    (hread : (readingOp d.operation).isSome) : (d.baseCycles, d.penalty) = readCost d.mode := by
  have hall : ∀ b, ∀ d ∈ descriptor b,
      (readingOp d.operation).isSome → (d.baseCycles, d.penalty) = readCost d.mode := by decide
  exact hall op d h hread

/-- The opcode's row is of the instruction's own operation and mode (R85). -/
theorem descriptor_of_instr (i : Instr) :
    ∃ d, descriptor i.opcode = some d ∧ d.operation = i.operation ∧ d.mode = i.operand.mode := by
  cases i <;> exact ⟨_, rfl, rfl, rfl⟩

theorem add_oneIf (n : Nat) (b : Bool) : n + oneIf b = if b then n + 1 else n := by
  cases b <;> rfl

/-- The cycles of R300 are the base of the mode and the penalty of its mark. -/
theorem readCycles_eq_cost {i : Instr} {src : Source} (h : i.operand = .source src) (s : State) :
    readCycles src s = (readCost src.mode).1 + penaltyCycles (readCost src.mode).2 i s := by
  have hcross : penaltyCycles .pageCross i s = oneIf (sourceCrossed src s) := by
    unfold penaltyCycles
    simp only [h]
  cases src with
  | imm _ => rfl
  | mem m =>
    cases m with
    | zp _ | zpX _ | zpY _ | abs _ | indX _ => rfl
    | absX _ | absY _ => exact (add_oneIf 4 _).symm.trans (congrArg (4 + ·) hcross.symm)
    | indY _ => exact (add_oneIf 5 _).symm.trans (congrArg (5 + ·) hcross.symm)

theorem cycles_of_reading {i : Instr} {src : Source} (hread : (readingOp i.operation).isSome)
    (hsrc : i.operand = .source src) (s : State) : cycles i s = readCycles src s := by
  obtain ⟨d, hd, hop, hmode⟩ := descriptor_of_instr i
  have hcost : (d.baseCycles, d.penalty) = readCost src.mode := by
    rw [descriptor_read_cost hd (hop ▸ hread), hmode, hsrc, Operand.mode]
  rw [readCycles_eq_cost hsrc, ← hcost, cycles, hd]

/-- A list that holds every row of the table with the operation holds the instruction's own cell (R88). -/
theorem hasCell_of_rows {i : Instr} {op : Operation} {cells : List (Mode × Byte)} (hop : i.operation = op)
    (h : ∀ b, ∀ d ∈ descriptor b, d.operation = op → (d.mode, b) ∈ cells) : HasCell i cells := by
  obtain ⟨d, hd, hdop, hmode⟩ := descriptor_of_instr i
  have hcell := h i.opcode d hd (hdop.trans hop)
  rwa [hmode] at hcell

/-- An instruction of a reading operation: the operand it reads, what follows from its answer, its cycles and its
cell. -/
theorem exists_source_of_reading {i : Instr} {op : Operation} {g : Source → State → State}
    {cells : List (Mode × Byte)} (hop : i.operation = op) (hg : readingOp op = some g)
    (hcells : ∀ b, ∀ d ∈ descriptor b, d.operation = op → (d.mode, b) ∈ cells) (s : State) {P : Source → Prop}
    (h : ∀ src, i.length = src.mode.length → exec i s = .next (g src s) → P src) :
    ∃ src, i.operand = .source src ∧ P src ∧ cycles i s = readCycles src s ∧ HasCell i cells := by
  subst hop
  obtain ⟨f, hm, hf⟩ := exec_eq_meaning i
  obtain ⟨src, hsrc, rfl⟩ := hm.eq_reading hg
  have hlen : i.length = src.mode.length := congrArg (·.mode.length) hsrc
  exact ⟨src, hsrc, h src hlen (hf s), cycles_of_reading (hg ▸ rfl) hsrc s, hasCell_of_rows rfl hcells⟩

end Sys2Proof.Machine
end

section
/-! SUPPORT. The compare and the adders in numbers, said once: the outputs of R141 to R143 and R147, the decimal results
that R145 fixes, and the nibble-wise correction of R146 (42_alu_flags_arith_logic.md). -/

namespace Sys2Proof.Machine

theorem bit7_eq_decide (v : Byte) : bit7 v = decide (128 ≤ v.toNat) := BitVec.msb_eq_decide v

/-- The flags of a compare, as R147 states them. -/
theorem Status.compare_eq (p : Status) (reg m : Byte) :
    p.compare reg m = { p with
      c := decide (m.toNat ≤ reg.toNat), z := decide (reg = m)
      n := decide (128 ≤ (256 + reg.toNat - m.toNat) % 256) } := by
  have hzero : (reg - m == 0) = decide (reg = m) := by
    rw [beq_eq_decide, decide_eq_decide, BitVec.sub_eq_iff_eq_add, BitVec.ofNat_eq_ofNat, BitVec.zero_add]
  have hsign : bit7 (reg - m) = decide (128 ≤ (256 + reg.toNat - m.toNat) % 256) := by
    rw [bit7_eq_decide, BitVec.toNat_sub, Nat.sub_add_comm m.isLt.le]
  rw [Status.compare, hzero, hsign]

/-! ### The binary adder (R141) -/

section AddBinary
variable (a m : Byte) (cin : Bool)

theorem addBinary_r_toNat : (addBinary a m cin).r.toNat = (a.toNat + m.toNat + cin.toNat) % 256 :=
  BitVec.toNat_ofNat _ 8

theorem addBinary_c_iff : (addBinary a m cin).c = true ↔ a.toNat + m.toNat + cin.toNat > 0xFF := decide_eq_true_iff

theorem addBinary_v_iff_bits :
    (addBinary a m cin).v = true ↔ (~~~(a ^^^ m) &&& (a ^^^ (addBinary a m cin).r)) &&& 0x80 ≠ 0 := bne_iff_ne

/-- N is bit 7 of the result (R140). -/
theorem addBinary_n_iff : (addBinary a m cin).n = true ↔ (addBinary a m cin).r.toNat ≥ 128 := by
  rw [← decide_eq_true_iff (p := _ ≥ _), ← bit7_eq_decide, addBinary]

theorem addBinary_z_iff : (addBinary a m cin).z = true ↔ (addBinary a m cin).r = 0 := beq_iff_eq

end AddBinary

/-- The mask 0x80 leaves bit 7, checked on all 256 bytes. -/
theorem and_0x80_ne_zero_iff (v : Byte) : v &&& 0x80 ≠ 0 ↔ v.msb = true := by
  revert v
  decide

/-- The bit formula of V says that the operands have one sign and the result has the other. -/
theorem overflow_bits_iff_signs (a m r : Byte) :
    (~~~(a ^^^ m) &&& (a ^^^ r)) &&& 0x80 ≠ 0 ↔ a.msb = m.msb ∧ a.msb ≠ r.msb := by
  rw [and_0x80_ne_zero_iff, BitVec.msb_and, BitVec.msb_not, BitVec.msb_xor, BitVec.msb_xor]
  simp

/-- V is signed overflow: the sum leaves the signed range exactly when it takes the sign that its operands have not
(R142). -/
theorem addBinary_v_iff_overflow (a m : Byte) (cin : Bool) :
    (addBinary a m cin).v = true ↔
      a.toInt + m.toInt + cin.toNat < -128 ∨ a.toInt + m.toInt + cin.toNat > 127 := by
  have hcin := cin.toNat_le
  rw [addBinary_v_iff_bits, overflow_bits_iff_signs]
  simp only [BitVec.msb_eq_decide, addBinary_r_toNat, BitVec.toInt_eq_toNat_cond, ne_eq, decide_eq_decide]
  omega

/-! ### The binary subtractor (R143) -/

/-- The complement of a signed byte. -/
theorem not_toInt (m : Byte) : (~~~m).toInt = -1 - m.toInt := by
  rw [BitVec.toInt_eq_toNat_cond, BitVec.toInt_eq_toNat_cond, BitVec.toNat_not]
  omega

theorem subBinary_r_toNat (a m : Byte) (cin : Bool) :
    ((subBinary a m cin).r.toNat : Int) = ((a.toNat : Int) - m.toNat - (1 - cin.toNat)) % 256 := by
  rw [subBinary, addBinary_r_toNat, BitVec.toNat_not]
  omega

theorem subBinary_c_iff (a m : Byte) (cin : Bool) :
    (subBinary a m cin).c = true ↔ (a.toNat : Int) ≥ m.toNat + (1 - cin.toNat) := by
  rw [subBinary, addBinary_c_iff, BitVec.toNat_not]
  omega

theorem subBinary_v_iff_overflow (a m : Byte) (cin : Bool) :
    (subBinary a m cin).v = true ↔
      a.toInt - m.toInt - (1 - cin.toNat) < -128 ∨ a.toInt - m.toInt - (1 - cin.toNat) > 127 := by
  rw [subBinary, addBinary_v_iff_overflow, not_toInt]
  omega

/-- A subtraction undoes an addition: the two wraps mod 256 cancel. -/
theorem subBinary_addBinary_r (a b : Byte) : (subBinary (addBinary a b false).r b true).r = a := by
  apply BitVec.eq_of_toNat_eq
  have hsub := subBinary_r_toNat (addBinary a b false).r b true
  rw [addBinary_r_toNat, Bool.toNat_false, Bool.toNat_true] at hsub
  omega

/-! ### Decimal digits (R145) -/

theorem validBcd_iff (b : Byte) : validBcd b = true ↔ highDigit b ≤ 9 ∧ lowDigit b ≤ 9 := by
  rw [validBcd, Bool.and_eq_true, decide_eq_true_iff, decide_eq_true_iff]

theorem toNat_eq_digits (b : Byte) : b.toNat = 16 * highDigit b + lowDigit b :=
  (Nat.div_add_mod b.toNat 16).symm

theorem digits_bcdOfDec {n : Nat} (h : n < 100) :
    highDigit (bcdOfDec n) = n / 10 ∧ lowDigit (bcdOfDec n) = n % 10 := by
  have hbyte : (bcdOfDec n).toNat = 16 * (n / 10) + n % 10 := by
    rw [bcdOfDec, BitVec.toNat_ofNat]
    omega
  rw [highDigit, lowDigit, hbyte]
  omega

theorem validBcd_bcdOfDec {n : Nat} (h : n < 100) : validBcd (bcdOfDec n) = true := by
  obtain ⟨hhigh, hlow⟩ := digits_bcdOfDec h
  rw [validBcd_iff, hhigh, hlow]
  omega

theorem decOfBcd_bcdOfDec {n : Nat} (h : n < 100) : decOfBcd (bcdOfDec n) = n := by
  obtain ⟨hhigh, hlow⟩ := digits_bcdOfDec h
  rw [decOfBcd, hhigh, hlow, Nat.div_add_mod]

/-! ### The nibble-wise correction (R146) -/

/-- Adding 6 to a low digit above 9 carries 10 out of it. -/
theorem add_low_digit {n : Nat} (h : n < 20) :
    (if n ≥ 0x0A then (n + 0x06) % 16 + 0x10 else n) = 16 * (n / 10) + n % 10 := by
  split <;> omega

/-- Adding 6 to a high digit above 9 carries 10 out of the byte. -/
theorem add_high_digit {h l : Nat} (hh : h < 20) (hl : l < 10) :
    (if 16 * h + l ≥ 0xA0 then 16 * h + l + 0x60 else 16 * h + l) = 256 * (h / 10) + 16 * (h % 10) + l := by
  split <;> omega

/-- Taking 6 from a low digit below 0 borrows 10 for it. -/
theorem sub_low_digit {n : Int} (hlo : -10 ≤ n) (hhi : n < 10) :
    (if n < 0 then (n - 0x06) % 16 - 0x10 else n) = 16 * (n / 10) + n % 10 := by
  split <;> omega

/-- Taking 6 from a high digit below 0 borrows 10 for it, from outside the byte. -/
theorem sub_high_digit {h l : Int} (hlo : -10 ≤ h) (hhi : h < 10) (hl : 0 ≤ l) (hl' : l < 10) :
    (if 16 * h + l < 0 then 16 * h + l - 0x60 else 16 * h + l) = 256 * (h / 10) + 16 * (h % 10) + l := by
  split <;> omega

theorem toNat_sub_lowDigit (b : Byte) : b.toNat - lowDigit b = 16 * highDigit b := by
  have hdigits := toNat_eq_digits b
  omega

section ValidDigits
variable {a m : Byte} (cin : Bool) (ha : validBcd a = true) (hm : validBcd m = true)
include ha hm

/-- Decimal addition of valid digits, whatever its free part is (R145). -/
theorem decimalArith_add_of_valid :
    validBcd (decimalArith .add a m cin).r = true ∧
    decOfBcd (decimalArith .add a m cin).r = (decOfBcd a + decOfBcd m + cin.toNat) % 100 ∧
    ((decimalArith .add a m cin).c = true ↔ decOfBcd a + decOfBcd m + cin.toNat > 99) := by
  obtain ⟨hr, hc⟩ := decimalArith_of_valid (op := .add) (cin := cin) ha hm
  have hlt : (decOfBcd a + decOfBcd m + cin.toNat) % 100 < 100 := Nat.mod_lt _ (by decide)
  rw [hr, hc]
  exact ⟨validBcd_bcdOfDec hlt, decOfBcd_bcdOfDec hlt, decide_eq_true_iff⟩

/-- Decimal subtraction of valid digits, whatever its free part is (R145). -/
theorem decimalArith_sub_of_valid :
    validBcd (decimalArith .sub a m cin).r = true ∧
    (decOfBcd (decimalArith .sub a m cin).r : Int) = ((decOfBcd a : Int) - decOfBcd m - (1 - cin.toNat)) % 100 ∧
    ((decimalArith .sub a m cin).c = true ↔ (decOfBcd a : Int) - decOfBcd m - (1 - cin.toNat) ≥ 0) := by
  obtain ⟨hr, hc⟩ := decimalArith_of_valid (op := .sub) (cin := cin) ha hm
  have hlt : (((decOfBcd a : Int) - decOfBcd m - (1 - cin.toNat)) % 100).toNat < 100 := by omega
  rw [hr, hc]
  refine ⟨validBcd_bcdOfDec hlt, ?_, decide_eq_true_iff⟩
  rw [decimalFixed, decimalSub, decOfBcd_bcdOfDec hlt]
  exact Int.toNat_of_nonneg (Int.emod_nonneg _ (by decide))

/-- The corrected sum holds the digits of the decimal sum, and its hundred at bit 8. -/
theorem decimalDefaultAdd_digits :
    ∃ t, (decimalDefaultAdd a m cin).r = BitVec.ofNat 8 t ∧ (decimalDefaultAdd a m cin).c = decide (t ≥ 0x100) ∧
      ∀ s, s = decOfBcd a + decOfBcd m + cin.toNat → t = 256 * (s / 100) + 16 * (s % 100 / 10) + s % 100 % 10 := by
  have hcin := cin.toNat_le
  obtain ⟨haHigh, haLow⟩ := (validBcd_iff a).1 ha
  obtain ⟨hmHigh, hmLow⟩ := (validBcd_iff m).1 hm
  refine ⟨_, rfl, rfl, fun s hs => ?_⟩
  rw [← lowDigit, ← lowDigit, toNat_sub_lowDigit, toNat_sub_lowDigit, add_low_digit (by omega),
    ← Nat.add_assoc, ← Nat.mul_add, ← Nat.mul_add, add_high_digit (by omega) (by omega)]
  rw [decOfBcd, decOfBcd] at hs
  omega

theorem decimalDefaultAdd_of_valid :
    (decimalDefaultAdd a m cin).r = (decimalAdd a m cin).1 ∧
    (decimalDefaultAdd a m cin).c = (decimalAdd a m cin).2 := by
  obtain ⟨t, hr, hc, ht⟩ := decimalDefaultAdd_digits cin ha hm
  rw [hr, hc, ht _ rfl]
  constructor
  · apply BitVec.eq_of_toNat_eq
    simp only [decimalAdd, bcdOfDec, BitVec.toNat_ofNat]
    omega
  · exact decide_eq_decide.2 (by omega)

/-- The corrected difference holds the digits of the decimal difference mod 100, and its borrow at bit 8. -/
theorem decimalDefaultSub_digits :
    ∃ t, (decimalDefaultSub a m cin).r = BitVec.ofInt 8 t ∧
      ∀ d : Int, d = decOfBcd a - decOfBcd m - (1 - cin.toNat) →
        t = 256 * (d / 100) + 16 * (d % 100 / 10) + d % 100 % 10 := by
  have hcin := cin.toNat_le
  obtain ⟨haHigh, haLow⟩ := (validBcd_iff a).1 ha
  obtain ⟨hmHigh, hmLow⟩ := (validBcd_iff m).1 hm
  refine ⟨_, rfl, fun d hd => ?_⟩
  rw [← lowDigit, ← lowDigit, toNat_sub_lowDigit, toNat_sub_lowDigit, sub_low_digit (by omega) (by omega),
    ← Int.add_assoc, Nat.cast_mul, Nat.cast_mul, ← Int.mul_sub, Nat.cast_ofNat, ← Int.mul_add,
    sub_high_digit (by omega) (by omega) (by omega) (by omega)]
  rw [decOfBcd, decOfBcd] at hd
  omega

/-- The carry is that of the binary subtraction (R146): valid digits rank their bytes as they rank their values. -/
theorem decimalDefaultSub_of_valid :
    (decimalDefaultSub a m cin).r = (decimalSub a m cin).1 ∧
    (decimalDefaultSub a m cin).c = (decimalSub a m cin).2 := by
  constructor
  · obtain ⟨t, hr, ht⟩ := decimalDefaultSub_digits cin ha hm
    rw [hr, ht _ rfl]
    apply BitVec.eq_of_toNat_eq
    simp only [decimalSub, bcdOfDec, BitVec.toNat_ofNat, BitVec.toNat_ofInt]
    omega
  · have hcin := cin.toNat_le
    obtain ⟨-, haLow⟩ := (validBcd_iff a).1 ha
    obtain ⟨-, hmLow⟩ := (validBcd_iff m).1 hm
    rw [Bool.eq_iff_iff, decimalDefaultSub, subBinary_c_iff, decimalSub, decide_eq_true_iff, toNat_eq_digits a,
      toNat_eq_digits m, decOfBcd, decOfBcd]
    omega

end ValidDigits

end Sys2Proof.Machine
end

section
/-! PROOFS. The obligations about arithmetic, logic and their flags (42_alu_flags_arith_logic.md). -/

namespace Sys2Proof.Machine

/-- Settles O26, output by output. -/
theorem binaryAdditionIsExact : Obligations.BinaryAdditionIsExact := fun a m cin =>
  ⟨_, rfl, addBinary_r_toNat a m cin, addBinary_c_iff a m cin, addBinary_v_iff_bits a m cin,
    addBinary_v_iff_overflow a m cin, addBinary_n_iff a m cin, addBinary_z_iff a m cin⟩

/-- Settles O27: the complement is 255 - m, and as a signed number -1 - m. -/
theorem binarySubtractionIsExact : Obligations.BinarySubtractionIsExact :=
  ⟨fun a m cin => ⟨_, rfl, rfl, subBinary_r_toNat a m cin, subBinary_c_iff a m cin, subBinary_v_iff_overflow a m cin⟩,
    subBinary_addBinary_r⟩

/-- Settles O28: ADC reads its operand, and D chooses its adder. -/
theorem adcWritesTheSum : Obligations.AdcWritesTheSum := by
  intro i s hop
  refine exists_source_of_reading hop rfl (by decide) s fun src hlen hexec => ⟨_, rfl, ?_⟩
  rw [hexec, hlen]
  rfl

/-- Settles O29: SBC reads its operand, and D chooses its subtractor. -/
theorem sbcWritesTheDifference : Obligations.SbcWritesTheDifference := by
  intro i s hop
  refine exists_source_of_reading hop rfl (by decide) s fun src hlen hexec => ⟨_, rfl, ?_⟩
  rw [hexec, hlen]
  rfl

/-- Settles O30: with D set the adder is `decimalArith`, whose result and carry R145 fixes on valid digits. -/
theorem decimalResultOnValidDigits : Obligations.DecimalResultOnValidDigits := by
  intro i src s hsrc hd ha hm
  refine ⟨fun hop => ?_, fun hop => ?_⟩
  · obtain ⟨src', hsrc', ⟨o, ho, hexec⟩, -⟩ := adcWritesTheSum i s hop
    cases hsrc.symm.trans hsrc'
    rw [if_pos hd] at ho
    exact ⟨_, hexec, ho ▸ decimalArith_add_of_valid s.p.c ha hm⟩
  · obtain ⟨src', hsrc', ⟨o, ho, hexec⟩, -⟩ := sbcWritesTheDifference i s hop
    cases hsrc.symm.trans hsrc'
    rw [if_pos hd] at ho
    exact ⟨_, hexec, ho ▸ decimalArith_sub_of_valid s.p.c ha hm⟩

/-- Settles O31, for the sum and the difference. -/
theorem decimalDefaultMeetsTheFixedPart : Obligations.DecimalDefaultMeetsTheFixedPart := by
  intro op a m cin ha hm
  cases op with
  | add => exact decimalDefaultAdd_of_valid cin ha hm
  | sub => exact decimalDefaultSub_of_valid cin ha hm

/-- Settles O32: the three operations read their operand and differ in the function alone. -/
theorem logicWritesA : Obligations.LogicWritesA := by
  intro i s
  refine ⟨fun hop => ?_, fun hop => ?_, fun hop => ?_⟩
  all_goals
    refine exists_source_of_reading hop rfl (by decide) s fun src hlen hexec => ⟨_, rfl, ?_⟩
    rw [hexec, hlen]
    rfl

/-- Settles O33: the three compares read their operand and differ in the register alone. -/
theorem comparesSetTheFlagsOnly : Obligations.ComparesSetTheFlagsOnly := by
  intro i s
  refine ⟨fun hop => ?_, fun hop => ?_, fun hop => ?_⟩
  all_goals
    refine exists_source_of_reading hop rfl (by decide) s fun src hlen hexec => ⟨_, rfl, ?_⟩
    rw [hexec, compareOp, Status.compare_eq, hlen]
    rfl

/-- Settles O34: BIT reads its operand. -/
theorem bitTestsWithoutTouchingA : Obligations.BitTestsWithoutTouchingA := by
  intro i s hop
  refine exists_source_of_reading hop rfl (by decide) s fun src hlen hexec => ⟨_, rfl, ?_⟩
  rw [hexec, hlen]
  rfl

end Sys2Proof.Machine
end

section
/-! SUPPORT. The stores, said once: what the three operations make of the state, what they cost, and the memory after
them (40_execute_dispatch.md R300; 43_load_store_transfer.md R173 to R175). -/

namespace Sys2Proof.Machine

/-- The register that each store writes to memory. `Meaning.eq_store` ties it to the rows of `Meaning`. -/
def storedRegister : Operation → Option (State → Byte)
  | .sta => some State.a
  | .stx => some State.x
  | .sty => some State.y
  | _ => none

theorem Meaning.eq_store {op : Operation} {opd : Operand} {f : State → State} (hm : Meaning op opd f)
    {r : State → Byte} (h : storedRegister op = some r) :
    ∃ m, opd = .source (.mem m) ∧ f = fun s => storeOp m (r s) s := by
  cases hm with
  | sta m | stx m | sty m =>
    cases h
    exact ⟨m, rfl, rfl⟩
  | _ => cases h

/-- A store always costs the most that a read in its mode can cost: its base includes the page-cross cycle, and it has
no mark. Checked on all 256 bytes. -/
theorem descriptor_store_cost {op : Byte} {d : Descriptor} (h : descriptor op = some d)
    (hstore : (storedRegister d.operation).isSome) :
    d.baseCycles = (readCost d.mode).1 + maxPenalty (readCost d.mode).2 ∧ d.penalty = .fixed := by
  have hall : ∀ b, ∀ d ∈ descriptor b, (storedRegister d.operation).isSome →
      d.baseCycles = (readCost d.mode).1 + maxPenalty (readCost d.mode).2 ∧ d.penalty = .fixed := by decide
  exact hall op d h hstore

theorem storeCycles_eq_max_readCost (m : MemOperand) :
    storeCycles m = (readCost m.mode).1 + maxPenalty (readCost m.mode).2 := by
  cases m <;> rfl

theorem cycles_of_store {i : Instr} {m : MemOperand} (hstore : (storedRegister i.operation).isSome)
    (hmem : i.operand = .source (.mem m)) (s : State) : cycles i s = storeCycles m := by
  obtain ⟨d, hd, hop, hmode⟩ := descriptor_of_instr i
  obtain ⟨hbase, hfixed⟩ := descriptor_store_cost hd (hop ▸ hstore)
  calc cycles i s
    _ = d.baseCycles + penaltyCycles d.penalty i s := by rw [cycles, hd]
    _ = d.baseCycles := by rw [hfixed]; rfl
    _ = storeCycles m := by rw [hbase, hmode, hmem, storeCycles_eq_max_readCost, Operand.mode, Source.mode]

/-- A store: its operand, its whole next state, every byte of memory after it, its cycles and its cell. -/
theorem exists_operand_of_store {i : Instr} {op : Operation} {r : State → Byte} {cells : List (Mode × Byte)}
    (hop : i.operation = op) (hr : storedRegister op = some r)
    (hcells : ∀ b, ∀ d ∈ descriptor b, d.operation = op → (d.mode, b) ∈ cells) (s : State) :
    ∃ m, i.operand = .source (.mem m) ∧
      exec i s = .next { s.write (effAddr m s) (r s) with pc := s.pc + BitVec.ofNat 16 i.length } ∧
      (∀ t addr, exec i s = .next t → t.read addr = if addr = effAddr m s then r s else s.read addr) ∧
      cycles i s = storeCycles m ∧ HasCell i cells := by
  subst hop
  obtain ⟨f, hm, hf⟩ := exec_eq_meaning i
  obtain ⟨m, hmem, rfl⟩ := hm.eq_store hr
  have hexec : exec i s = .next { s.write (effAddr m s) (r s) with pc := s.pc + BitVec.ofNat 16 i.length } := by
    rw [hf, Instr.length, hmem]
    rfl
  refine ⟨m, hmem, hexec, fun t addr ht => ?_, cycles_of_store (hr ▸ rfl) hmem s, hasCell_of_rows rfl hcells⟩
  cases hexec.symm.trans ht
  exact State.read_write s (effAddr m s) addr (r s)

end Sys2Proof.Machine
end

section
/-! PROOFS. The obligations about loads, stores and transfers (43_load_store_transfer.md). -/

namespace Sys2Proof.Machine

/-- Settles O23: the three loads read their operand and differ in the register alone. -/
theorem loadsReplaceTheRegister : Obligations.LoadsReplaceTheRegister := by
  intro i s
  refine ⟨fun hop => ?_, fun hop => ?_, fun hop => ?_⟩
  all_goals
    refine exists_source_of_reading hop rfl (by decide) s fun src hlen hexec => ?_
    rw [hexec, hlen]
    rfl

/-- Settles O24: the three stores differ in the register alone. -/
theorem storesWriteOneByte : Obligations.StoresWriteOneByte := fun _ s =>
  ⟨fun hop => exists_operand_of_store hop rfl (by decide) s,
    fun hop => exists_operand_of_store hop rfl (by decide) s,
    fun hop => exists_operand_of_store hop rfl (by decide) s⟩

/-- Settles O25: each transfer has one form, and each of its clauses is that form's meaning, row or opcode. -/
theorem transfersCopyTheRegister : Obligations.TransfersCopyTheRegister := by
  intro s
  refine ⟨?tax, ?tay, ?txa, ?tya, ?tsx, ?txs⟩
  all_goals exact ⟨rfl, rfl, rfl⟩

end Sys2Proof.Machine
end

section
/-! SUPPORT. The read-modify-writes, said once: what each makes of its byte, what that costs, and its cells; the shifts
and rotates in numbers, for memory and for A (44_inc_dec_shift_rotate.md R190 to R200; 40_execute_dispatch.md R300). -/

namespace Sys2Proof.Machine

/-- What each read-modify-write makes of its memory operand and the state. `Meaning.eq_modifying` ties it to the rows of
`Meaning`. -/
def modifyingOp : Operation → Option (MemOperand → State → State)
  | .inc => some (incDecMem (· + 1))
  | .dec => some (incDecMem (· - 1))
  | .asl => some (shiftMem aslByte)
  | .lsr => some (shiftMem lsrByte)
  | .rol => some (shiftMem rolByte)
  | .ror => some (shiftMem rorByte)
  | _ => none

/-- A read-modify-write has a memory operand, or is the accumulator form of a shift or rotate (R190). -/
theorem Meaning.eq_modifying {op : Operation} {opd : Operand} {f : State → State} (hm : Meaning op opd f)
    {g : MemOperand → State → State} (h : modifyingOp op = some g) :
    (op ∈ [.asl, .lsr, .rol, .ror] ∧ opd = .accumulator) ∨ ∃ m, opd = .source (.mem m) ∧ f = g m := by
  cases hm with
  | aslAcc | lsrAcc | rolAcc | rorAcc => exact .inl ⟨by decide, rfl⟩
  | inc m | dec m | aslMem m | lsrMem m | rolMem m | rorMem m =>
    cases h
    exact .inr ⟨m, rfl, rfl⟩
  | _ => cases h

theorem operand_of_modifying {i : Instr} (h : (modifyingOp i.operation).isSome) :
    (i.operation ∈ [.asl, .lsr, .rol, .ror] ∧ i.operand = .accumulator) ∨ ∃ m, i.operand = .source (.mem m) := by
  obtain ⟨g, hg⟩ := Option.isSome_iff_exists.1 h
  obtain ⟨f, hm, -⟩ := exec_eq_meaning i
  exact (hm.eq_modifying hg).imp_right fun ⟨m, hmem, _⟩ => ⟨m, hmem⟩

/-- The base cycles of a read-modify-write by its mode (R124, R190, R300). There is none in another mode. -/
def modifyCost : Mode → Nat
  | .accumulator => 2
  | .zeroPage => 5
  | .zeroPageX | .absolute => 6
  | .absoluteX => 7
  | _ => 0

/-- The table charges every read-modify-write by its mode, with no mark. Checked on all 256 bytes. -/
theorem descriptor_modify_cost {op : Byte} {d : Descriptor} (h : descriptor op = some d)
    (hmodify : (modifyingOp d.operation).isSome) : d.baseCycles = modifyCost d.mode ∧ d.penalty = .fixed := by
  have hall : ∀ b, ∀ d ∈ descriptor b, (modifyingOp d.operation).isSome →
      d.baseCycles = modifyCost d.mode ∧ d.penalty = .fixed := by decide
  exact hall op d h hmodify

theorem modifyCycles_eq_modifyCost (m : MemOperand) : modifyCycles m = modifyCost m.mode := by
  cases m <;> rfl

theorem cycles_of_modifying {i : Instr} {m : MemOperand} (hmodify : (modifyingOp i.operation).isSome)
    (hmem : i.operand = .source (.mem m)) (s : State) : cycles i s = modifyCycles m := by
  obtain ⟨d, hd, hop, hmode⟩ := descriptor_of_instr i
  obtain ⟨hbase, hfixed⟩ := descriptor_modify_cost hd (hop ▸ hmodify)
  calc cycles i s
    _ = d.baseCycles + penaltyCycles d.penalty i s := by rw [cycles, hd]
    _ = d.baseCycles := by rw [hfixed]; rfl
    _ = modifyCycles m := by rw [hbase, hmode, hmem, modifyCycles_eq_modifyCost, Operand.mode, Source.mode]

/-- A read-modify-write on memory: what follows from its answer, its cycles and its cell. -/
theorem memory_form_of_modifying {i : Instr} {op : Operation} {g : MemOperand → State → State}
    {cells : List (Mode × Byte)} (hop : i.operation = op) (hg : modifyingOp op = some g)
    (hcells : ∀ b, ∀ d ∈ descriptor b, d.operation = op → (d.mode, b) ∈ cells) (s : State) {P : MemOperand → Prop}
    (h : ∀ m, i.length = m.mode.length → exec i s = .next (g m s) → P m) (m : MemOperand)
    (hmem : i.operand = .source (.mem m)) : P m ∧ cycles i s = modifyCycles m ∧ HasCell i cells := by
  subst hop
  obtain ⟨f, hm, hf⟩ := exec_eq_meaning i
  rw [hmem] at hm
  obtain ⟨-, hacc⟩ | ⟨_, ⟨⟩, rfl⟩ := hm.eq_modifying hg
  · cases hacc
  · have hlen : i.length = m.mode.length := congrArg (·.mode.length) hmem
    exact ⟨h m hlen (hf s), cycles_of_modifying (hg ▸ rfl) hmem s, hasCell_of_rows rfl hcells⟩

/-! ### The shifts and rotates in numbers (R197 to R200) -/

theorem getLsbD_zero_eq_decide (v : Byte) : v.getLsbD 0 = decide (v.toNat % 2 = 1) := Nat.testBit_zero v.toNat

theorem aslByte_eq (v : Byte) (c : Bool) :
    aslByte v c = (BitVec.ofNat 8 (2 * v.toNat), decide (128 ≤ v.toNat)) :=
  Prod.ext (aslByte_fst v c) (bit7_eq_decide v)

theorem lsrByte_eq (v : Byte) (c : Bool) :
    lsrByte v c = (BitVec.ofNat 8 (v.toNat / 2), decide (v.toNat % 2 = 1)) :=
  Prod.ext (lsrByte_fst v c) (getLsbD_zero_eq_decide v)

theorem rolByte_eq (v : Byte) (c : Bool) :
    rolByte v c = (BitVec.ofNat 8 (2 * v.toNat + c.toNat), decide (128 ≤ v.toNat)) :=
  Prod.ext (rolByte_fst v c) (bit7_eq_decide v)

theorem rorByte_eq (v : Byte) (c : Bool) :
    rorByte v c = (BitVec.ofNat 8 (v.toNat / 2 + 128 * c.toNat), decide (v.toNat % 2 = 1)) :=
  Prod.ext (rorByte_fst v c) (getLsbD_zero_eq_decide v)

/-- The accumulator form of a shift, from its result and the bit shifted out. -/
theorem shiftAcc_of_eq {f : Shifter} {s : State} {r : Byte} {out : Bool} (h : f s.a s.p.c = (r, out)) :
    shiftAcc f s =
      { s with a := r, pc := s.pc + 1, p := { s.p with c := out, z := r == 0, n := r.getLsbD 7 } } := by
  rw [shiftAcc, h]
  rfl

/-- The memory form of a shift, from its result and the bit shifted out. -/
theorem shiftMem_of_eq {f : Shifter} {m : MemOperand} {s : State} {r : Byte} {out : Bool}
    (h : f (s.read (effAddr m s)) s.p.c = (r, out)) :
    shiftMem f m s =
      { s.write (effAddr m s) r with
        p := { s.p with c := out, z := r == 0, n := r.getLsbD 7 }, pc := s.pc + BitVec.ofNat 16 m.mode.length } := by
  rw [shiftMem, h]
  rfl

end Sys2Proof.Machine
end

section
/-! PROOFS. The obligations about increments, decrements, shifts and rotates (44_inc_dec_shift_rotate.md). -/

namespace Sys2Proof.Machine

/-- Settles O35: INC and DEC differ in the function alone; only the shifts and rotates have an accumulator form. -/
theorem incAndDecModifyTheirByte : Obligations.IncAndDecModifyTheirByte := by
  intro i s
  refine ⟨fun hop => ?operand, fun hop => ?inc, fun hop => ?dec⟩
  case operand =>
    have hall : ∀ op ∈ [Operation.inc, .dec], (modifyingOp op).isSome ∧ op ∉ [Operation.asl, .lsr, .rol, .ror] := by
      decide
    obtain ⟨hmodify, hnot⟩ := hall _ hop
    exact (operand_of_modifying hmodify).resolve_left fun ⟨hshift, _⟩ => hnot hshift
  all_goals
    refine memory_form_of_modifying hop rfl (by decide) s fun m hlen hexec => ⟨_, _, rfl, rfl, ?_⟩
    rw [hexec, hlen]
    rfl

/-- Settles O36: each clause is its instruction's meaning, row or opcode. -/
theorem registerIncrementsWrap : Obligations.RegisterIncrementsWrap := by
  intro s
  refine ⟨?inx, ?iny, ?dex, ?dey⟩
  all_goals exact ⟨rfl, rfl, rfl⟩

/-- Settles O37: the four forms differ in the shift alone. -/
theorem accumulatorShiftsMoveOneBit : Obligations.AccumulatorShiftsMoveOneBit := fun _ =>
  ⟨⟨⟨_, rfl, congrArg Host.Outcome.next (shiftAcc_of_eq (aslByte_eq _ _))⟩, rfl, rfl⟩,
    ⟨⟨_, rfl, congrArg Host.Outcome.next (shiftAcc_of_eq (lsrByte_eq _ _))⟩, rfl, rfl⟩,
    ⟨⟨_, rfl, congrArg Host.Outcome.next (shiftAcc_of_eq (rolByte_eq _ _))⟩, rfl, rfl⟩,
    ⟨⟨_, rfl, congrArg Host.Outcome.next (shiftAcc_of_eq (rorByte_eq _ _))⟩, rfl, rfl⟩⟩

/-- Settles O38: the four operations differ in the shift alone. -/
theorem memoryShiftsMoveOneBit : Obligations.MemoryShiftsMoveOneBit := by
  intro i s
  refine ⟨fun hop => ?operand, fun hop => ?asl, fun hop => ?lsr, fun hop => ?rol, fun hop => ?ror⟩
  case operand =>
    have hall : ∀ op ∈ [Operation.asl, .lsr, .rol, .ror], (modifyingOp op).isSome := by decide
    exact (operand_of_modifying (hall _ hop)).imp_left And.right
  all_goals
    refine memory_form_of_modifying hop rfl (by decide) s fun m hlen hexec => ⟨_, _, rfl, rfl, ?_⟩
    rw [hexec, hlen]
    refine congrArg Host.Outcome.next (shiftMem_of_eq ?_)
  case asl => exact aslByte_eq _ _
  case lsr => exact lsrByte_eq _ _
  case rol => exact rolByte_eq _ _
  case ror => exact rorByte_eq _ _

end Sys2Proof.Machine
end

section
/-! SUPPORT. The jumps, the call and its return, and the branches, said once: the pointer of JMP in numbers, the stacked
word as two writes and two reads, and what a relative operand costs (40_execute_dispatch.md R104; 41_addressing_modes.md
R133, R134; 45_control_flow.md R210 to R222). -/

namespace Sys2Proof.Machine

/-! ### The pointer of JMP (R133) -/

/-- The address of the pointer's second byte: one up in the low byte, the same page. -/
theorem joinBytes_hi8_lo8_succ (ptr : Addr) :
    joinBytes (hi8 ptr) (lo8 ptr + 1) = BitVec.ofNat 16 (ptr.toNat / 256 * 256 + (ptr.toNat + 1) % 256) := by
  apply BitVec.eq_of_toNat_eq
  have hlow : (lo8 ptr + 1).toNat = (ptr.toNat % 256 + 1) % 256 := by rw [BitVec.toNat_add, lo8_toNat]; rfl
  rw [joinBytes_toNat, hi8_toNat, hlow, BitVec.toNat_ofNat]
  omega

theorem State.pageRead16_toNat (s : State) (ptr : Addr) :
    (s.pageRead16 ptr).toNat = (s.read ptr).toNat +
      256 * (s.read (BitVec.ofNat 16 (ptr.toNat / 256 * 256 + (ptr.toNat + 1) % 256))).toNat := by
  rw [State.pageRead16, joinBytes_toNat, joinBytes_hi8_lo8_succ, Nat.add_comm]

/-- Away from the end of a page the pointer's second byte is the next one. -/
theorem State.pageRead16_eq_read16 (s : State) {ptr : Addr} (h : ptr.toNat % 256 ≠ 0xFF) :
    s.pageRead16 ptr = s.read16 ptr := by
  have hnext : joinBytes (hi8 ptr) (lo8 ptr + 1) = ptr + 1 := by
    rw [joinBytes_hi8_lo8_succ]
    bv_omega
  rw [State.pageRead16, hnext, State.read16]

/-! ### The stacked word (R60, R61, R212, R213) -/

/-- A 16-bit push is two writes, and S falls by 2. -/
theorem State.push16_eq_writes (s : State) (w : Addr) :
    s.push16 w = { (s.write (stackAddr s.sp) (hi8 w)).write (stackAddr (s.sp - 1)) (lo8 w) with sp := s.sp - 2 } := by
  have hsp : s.sp - 1 - 1 = s.sp - 2 := by bv_omega
  rw [← hsp]
  rfl

/-- RTS goes to the word behind the one in the two slots above S (R213). -/
theorem returnFromCall_eq (s : State) :
    returnFromCall s = { s with
      sp := s.sp + 2, pc := joinBytes (s.read (stackAddr (s.sp + 2))) (s.read (stackAddr (s.sp + 1))) + 1 } := by
  have hsp : s.sp + 1 + 1 = s.sp + 2 := BitVec.add_assoc s.sp 1 1
  rw [← hsp]
  rfl

/-- RTS undoes the stack work of JSR and goes on behind it; only the two stacked bytes stay. -/
theorem returnFromCall_callTo (w : Addr) (s : State) :
    returnFromCall (callTo w s) = { s.push16 (s.pc + 2) with sp := s.sp, pc := s.pc + 3 } := by
  obtain ⟨-, -, -, -, hvalue, hsp⟩ := popOfPushReturnsTheWord s (s.pc + 2)
  have hpc : s.pc + 2 + 1 = s.pc + 3 := BitVec.add_assoc s.pc 2 1
  calc returnFromCall (callTo w s)
    _ = { s.push16 (s.pc + 2) with
          sp := (s.push16 (s.pc + 2)).pop16.2.sp, pc := (s.push16 (s.pc + 2)).pop16.1 + 1 } := rfl
    _ = { s.push16 (s.pc + 2) with sp := s.sp, pc := s.pc + 3 } := by rw [hvalue, hsp, hpc]

theorem exec_jsr (w : Addr) (s : State) : exec (.jsr w) s = .next (callTo w s) :=
  congrArg (fun target => Host.Outcome.next (callTo target s)) (effAddr_abs w s)

/-! ### The branches (R134, R214) -/

theorem branchTarget_eq_ofInt (s : State) (off : Byte) :
    branchTarget s off = BitVec.ofInt 16 ((s.pc + 2).toNat + off.toInt) := by
  rw [BitVec.ofInt_add, BitVec.ofInt_natCast, BitVec.ofNat_toNat, BitVec.setWidth_eq]
  rfl

/-- The table charges every relative operand 2 cycles and marks it as a branch, checked on all 256 bytes. -/
theorem descriptor_branch_cost {op : Byte} {d : Descriptor} (h : descriptor op = some d) (hmode : d.mode = .relative) :
    d.baseCycles = 2 ∧ d.penalty = .branch := by
  have hall : ∀ b, ∀ d ∈ descriptor b,
      d.mode = .relative → d.baseCycles = 2 ∧ d.penalty = .branch := by decide
  exact hall op d h hmode

/-- A branch pays for the condition and, when taken, for leaving the page of the next instruction (R104). -/
theorem two_add_branchPenalty (op : Operation) (off : Byte) (s : State) :
    2 + branchPenalty op off s =
      if branchTaken op s.p then (if hi8 (branchTarget s off) = hi8 (s.pc + 2) then 3 else 4) else 2 := by
  rw [branchPenalty, branchCrossed]
  split
  · obtain hpage | hpage := eq_or_ne (hi8 (branchTarget s off)) (hi8 (s.pc + 2))
    · rw [hpage, bne_self_eq_false, if_pos rfl]
      rfl
    · rw [bne_iff_ne.2 hpage, if_neg hpage]
      rfl
  · rfl

theorem cycles_of_branch {i : Instr} {off : Byte} (h : i.operand = .relative off) (s : State) :
    cycles i s =
      if branchTaken i.operation s.p then (if hi8 (branchTarget s off) = hi8 (s.pc + 2) then 3 else 4) else 2 := by
  obtain ⟨d, hd, -, hmode⟩ := descriptor_of_instr i
  obtain ⟨hbase, hmark⟩ := descriptor_branch_cost hd (hmode.trans (congrArg Operand.mode h))
  have hpenalty : penaltyCycles .branch i s = branchPenalty i.operation off s := by
    unfold penaltyCycles
    simp only [h]
  rw [← two_add_branchPenalty, ← hpenalty, cycles, hd]
  simp only [hbase, hmark]

theorem exec_of_branch {i : Instr} {off : Byte} (h : i.operand = .relative off) (s : State) :
    exec i s = .next (branchIf (branchTaken i.operation s.p) off s) := by
  obtain ⟨f, hm, hf⟩ := exec_eq_meaning i
  rw [h] at hm
  rw [hf, hm.eq_branchIf]

end Sys2Proof.Machine
end

section
/-! PROOFS. The obligations about control flow (45_control_flow.md). -/

namespace Sys2Proof.Machine

/-- Settles O39: the target of JMP indirect is the pointer read of R133. -/
theorem jumpsLoadPcAlone : Obligations.JumpsLoadPcAlone := by
  refine ⟨fun w s => ⟨?_, rfl, rfl⟩, fun ptr s => ?_⟩
  · exact congrArg (fun target => Host.Outcome.next (jumpTo target s)) (effAddr_abs w s)
  · exact ⟨s.pageRead16 ptr, rfl, s.pageRead16_toNat ptr, s.pageRead16_eq_read16, rfl, rfl⟩

/-- Settles O40: the stacked word is that of the 16-bit push. -/
theorem jsrStacksItsLastByte : Obligations.JsrStacksItsLastByte := by
  intro w s
  refine ⟨?_, rfl, rfl⟩
  rw [exec_jsr, callTo, State.push16_eq_writes]
  simp only [stackAddr_eq]

/-- Settles O41: the popped word in numbers. -/
theorem rtsReturnsPastThePoppedAddress : Obligations.RtsReturnsPastThePoppedAddress := by
  intro s
  refine ⟨_, congrArg Host.Outcome.next (returnFromCall_eq s), ?_, rfl, rfl⟩
  rw [BitVec.toNat_add, joinBytes_toNat, stackAddr_eq, stackAddr_eq, Nat.add_comm (256 * _)]
  rfl

/-- Settles O42: the eight differ in the flag that `branchTaken` names. -/
theorem branchesTestOneFlag : Obligations.BranchesTestOneFlag := by
  intro off s next target rule
  have hrule {i : Instr} {op : Byte} (hoff : i.operand = .relative off) (hop : i.opcode = op) :
      rule i (branchTaken i.operation s.p) op := by
    have htarget : branchTarget s off = target := branchTarget_eq_ofInt s off
    have hexec := exec_of_branch hoff s
    have hcycles := cycles_of_branch hoff s
    rw [branchIf, htarget] at hexec
    rw [htarget] at hcycles
    exact ⟨hexec, hcycles, hop⟩
  exact ⟨hrule rfl rfl, hrule rfl rfl, hrule rfl rfl, hrule rfl rfl, hrule rfl rfl, hrule rfl rfl, hrule rfl rfl,
    hrule rfl rfl⟩

/-- Settles O49: the return pops the word that the call stacked, so of the memory only the two slots can differ. -/
theorem callThenReturnRestoresTheStack : Obligations.CallThenReturnRestoresTheStack := by
  intro w s
  have hreturn : exec .rts (callTo w s) = .next { s.push16 (s.pc + 2) with sp := s.sp, pc := s.pc + 3 } :=
    congrArg Host.Outcome.next (returnFromCall_callTo w s)
  obtain ⟨-, -, hframe, -⟩ := popOfPushReturnsTheWord s (s.pc + 2)
  exact ⟨callTo w s, _, exec_jsr w s, hreturn, rfl, rfl, rfl, rfl, rfl, rfl, rfl, hframe, rfl⟩

end Sys2Proof.Machine
end

section
/-! SUPPORT. The pushes and pulls, the trap and its return, said once: a pull undoes a push, the trap as three writes,
the return as three reads, and the return undoes the trap (20_memory.md R58, R59; 46_stack_flags_system.md R230 to R233,
R242 to R245). -/

namespace Sys2Proof.Machine

/-! ### Push and pull (R58, R59, R230 to R233) -/

/-- A pull after a push returns the byte and gives S back; the byte stays in its slot. -/
theorem State.pop8_push8 (s : State) (v : Byte) : (s.push8 v).pop8 = (v, s.write (stackAddr s.sp) v) := by
  have hsp : s.sp - 1 + 1 = s.sp := BitVec.sub_add_cancel s.sp 1
  have hvalue : (s.push8 v).pop8.1 = v := by
    rw [State.pop8_value, State.push8_sp, hsp, State.read_push8, if_pos rfl]
  have hstate : (s.push8 v).pop8.2 = s.write (stackAddr s.sp) v := by
    rw [State.pop8_state, State.push8_sp, hsp]
    rfl
  exact Prod.ext hvalue hstate

theorem State.advance_push8 (s : State) (v : Byte) (n : Nat) : (s.push8 v).advance n = (s.advance n).push8 v := rfl

/-- PLP right after a push. -/
theorem pullStatus_push8 (s : State) (v : Byte) :
    pullStatus (s.push8 v) = { (s.advance 1).write (stackAddr s.sp) v with p := s.p.pulled v } := by
  rw [pullStatus, State.advance_push8, State.pop8_push8]
  rfl

/-- PLA right after a push. -/
theorem pullA_push8 (s : State) (v : Byte) :
    pullA (s.push8 v) = { (s.advance 1).write (stackAddr s.sp) v with a := v, p := s.p.setZN v } := by
  rw [pullA, State.advance_push8, State.pop8_push8]
  rfl

/-- Pulling a pushed status gives its six restorable flags; U and B stay those of the live status (R245). -/
theorem Status.pulled_pushed (p q : Status) : p.pulled q.pushed = { q with u := p.u, b := p.b } := by
  obtain ⟨hn, hv, -, -, hd, hi, hz, hc⟩ := Status.toByte_bits { q with u := true, b := true }
  rw [Status.pushed_eq_toByte, Status.pulled, hn, hv, hd, hi, hz, hc]

/-! ### The trap and its return (R242 to R244, R265, R267) -/

/-- What BRK leaves in the three slots (R242). -/
theorem State.read_enterTrap_slots (s : State) (ret : Addr) :
    (s.enterTrap ret).read (stackAddr s.sp) = hi8 ret ∧
    (s.enterTrap ret).read (stackAddr (s.sp - 1)) = lo8 ret ∧
    (s.enterTrap ret).read (stackAddr (s.sp - 2)) = s.p.pushed := by
  have hsp : s.sp - 1 - 1 = s.sp - 2 := by bv_omega
  have h01 : s.sp ≠ s.sp - 1 := by bv_omega
  have h02 : s.sp ≠ s.sp - 2 := by bv_omega
  have h12 : s.sp - 1 ≠ s.sp - 2 := by bv_omega
  simp only [State.read_enterTrap, stackAddr_inj, hsp, h01, h02, h12, if_true, if_false, and_self]

/-- BRK as the writes of its three cells: S falls by 3, I is set, PC comes from the vector (R242). -/
theorem State.enterTrap_eq_writeCells (s : State) :
    s.enterTrap (s.pc + 2) =
      { s.writeCells (storedCells .brk s) with
        sp := s.sp - 3, p := { s.p with i := true }, pc := s.read16 Config.breakVector } := by
  have hmem : (s.enterTrap (s.pc + 2)).mem = (s.writeCells (storedCells .brk s)).mem :=
    exec_mem_eq_writeCells (i := .brk) rfl
  have hsp : s.sp - 1 - 1 - 1 = s.sp - 3 := by bv_omega
  rw [State.enterTrap_eq, hmem, hsp]
  rfl

/-- RTI reads the three slots above S and writes none (R243). -/
theorem State.returnFromTrap_eq (s : State) :
    s.returnFromTrap =
      { s with
        sp := s.sp + 3
        pc := joinBytes (s.read (stackAddr (s.sp + 3))) (s.read (stackAddr (s.sp + 2)))
        p := s.p.pulled (s.read (stackAddr (s.sp + 1))) } := by
  have htwo : s.sp + 1 + 1 = s.sp + 2 := BitVec.add_assoc s.sp 1 1
  have hthree : s.sp + 2 + 1 = s.sp + 3 := BitVec.add_assoc s.sp 2 1
  rw [← hthree, ← htwo]
  rfl

/-- RTI undoes BRK but for the three stacked bytes, and goes on at the stacked address (R244). -/
theorem State.returnFromTrap_enterTrap (s : State) (ret : Addr) :
    (s.enterTrap ret).returnFromTrap = { s with pc := ret, mem := (s.enterTrap ret).mem } := by
  obtain ⟨hhigh, hlow, hstatus⟩ := s.read_enterTrap_slots ret
  have hsp : (s.enterTrap ret).sp = s.sp - 3 := by rw [State.enterTrap_sp]; bv_omega
  have hone : s.sp - 3 + 1 = s.sp - 2 := by bv_omega
  have htwo : s.sp - 3 + 2 = s.sp - 1 := by bv_omega
  have hthree : s.sp - 3 + 3 = s.sp := by bv_omega
  have hflags : (s.enterTrap ret).p.pulled s.p.pushed = s.p := Status.pulled_pushed _ _
  rw [State.returnFromTrap_eq, hsp, hone, htwo, hthree, hhigh, hlow, hstatus, joinBytes_halves, hflags,
    State.enterTrap_eq]

end Sys2Proof.Machine
end

section
/-! PROOFS. The obligations about the stack, the flags and the system instructions (46_stack_flags_system.md). -/

namespace Sys2Proof.Machine

/-- Settles O43: each clause is its instruction's meaning, row or opcode, with the slot as the spec writes it. -/
theorem pushesWriteTheSlotAtS : Obligations.PushesWriteTheSlotAtS := by
  intro s
  rw [← stackAddr_eq]
  refine ⟨?pha, ?php⟩
  all_goals exact ⟨rfl, rfl, rfl⟩

/-- Settles O44: each clause is its instruction's meaning, row or opcode, with the slot as the spec writes it. -/
theorem pullsReadTheSlotAboveS : Obligations.PullsReadTheSlotAboveS := by
  intro s
  rw [← stackAddr_eq]
  refine ⟨_, rfl, ?pla, ?plp⟩
  all_goals exact ⟨rfl, rfl, rfl⟩

/-- Settles O45: each clause is its instruction's meaning, row or opcode. -/
theorem flagInstructionsWriteOneFlag : Obligations.FlagInstructionsWriteOneFlag := by
  intro s
  refine ⟨?clc, ?sec, ?cli, ?sei, ?cld, ?sed, ?clv, ?nop⟩
  all_goals exact ⟨rfl, rfl, rfl⟩

/-- Settles O46: the state between is that of the three writes, and the vector is not on the stack page. -/
theorem breakTakesTheTrap : Obligations.BreakTakesTheTrap := by
  intro s
  have hexec : exec .brk s = .next (s.enterTrap (s.pc + 2)) := rfl
  have hread {addr : Addr} (haddr : 512 ≤ addr.toNat) :
      (s.writeCells (storedCells .brk s)).read addr = s.read addr := by
    rw [← State.read_congr (exec_mem_eq_writeCells hexec), State.read_enterTrap]
    simp only [ne_stackAddr_of_le haddr, if_false]
  have hlow := hread (addr := 0xFFFE) (by decide)
  have hhigh := hread (addr := 0xFFFF) (by decide)
  refine ⟨s.writeCells (storedCells .brk s), ?writes, ?answer, hlow, hhigh, rfl, rfl⟩
  case writes =>
    simp only [← stackAddr_eq]
    rfl
  case answer =>
    rw [hexec, State.enterTrap_eq_writeCells, hlow, hhigh]
    rfl

/-- Settles O47: the three slots as the spec writes them. -/
theorem returnFromInterruptRestores : Obligations.ReturnFromInterruptRestores := by
  intro s
  simp only [← stackAddr_eq]
  exact ⟨_, rfl, congrArg Host.Outcome.next s.returnFromTrap_eq, rfl, rfl⟩

/-- Settles O48: the return undoes the trap, so of the memory only the three slots can differ. -/
theorem breakThenReturnRestoresTheState : Obligations.BreakThenReturnRestoresTheState := by
  intro s
  simp only [← stackAddr_eq]
  have hbreak : exec .brk s = .next (s.enterTrap (s.pc + 2)) := rfl
  have hreturn : exec .rti (s.enterTrap (s.pc + 2)) = .next (s.enterTrap (s.pc + 2)).returnFromTrap := rfl
  obtain ⟨hhigh, hlow, hstatus⟩ := s.read_enterTrap_slots (s.pc + 2)
  have hframe (addr : Addr) := memoryUnchangedOutsideStoredBytes .brk s _ addr hbreak
  refine ⟨_, _, hbreak, hreturn, rfl, ?_⟩
  simp only [State.read_returnFromTrap]
  rw [State.returnFromTrap_enterTrap]
  exact ⟨rfl, rfl, rfl, rfl, rfl, rfl, hhigh, hlow, hstatus, hframe, rfl⟩

/-- Settles O50: a pull right after a push returns the pushed byte, and the flags of a pushed status come back. -/
theorem pushAndPullPairs : Obligations.PushAndPullPairs := by
  intro s
  rw [← stackAddr_eq]
  refine ⟨
    ⟨_, _, rfl, congrArg Host.Outcome.next (pullStatus_push8 _ _), ?flags, rfl, rfl, rfl, rfl, ?slot, ?frame⟩,
    ⟨_, _, rfl, congrArg Host.Outcome.next (pullA_push8 _ _), rfl⟩,
    ⟨_, _, rfl, congrArg Host.Outcome.next (pullStatus_push8 _ _), rfl⟩⟩
  case flags => exact Status.pulled_pushed s.p s.p
  case slot => exact (State.read_write s _ _ _).trans (if_pos rfl)
  case frame => exact fun addr haddr => (State.read_write s _ _ _).trans (if_neg haddr)

end Sys2Proof.Machine
end

section
/-! PROOFS. The obligation about exceptions (60_exceptions.md). -/

namespace Sys2Proof.Machine

/-- Settles O3: the meaning of an instruction is a total function from states to states, and exec answers its value. -/
theorem everyInstructionCompletes : Obligations.EveryInstructionCompletes := by
  intro i s
  obtain ⟨f, -, hf⟩ := exec_eq_meaning i
  exact ⟨f s, hf s⟩

end Sys2Proof.Machine
end

section
/-! SUPPORT. Off the stack page the trap writes nothing, a zero byte at PC is a BRK, and what every step keeps holds
along a run; the trap loop of zeroed memory put together from these (60_exceptions.md R265; 70_reset_and_hazards.md
R295). -/

namespace Sys2Proof.Machine

/-- A stack slot is on the stack page (R24), so an address on another page is none. -/
theorem ne_stackAddr_of_hi8_ne {addr : Addr} (h : hi8 addr ≠ Config.stackPage) (j : Byte) : addr ≠ stackAddr j := by
  rintro rfl
  exact h (hi8_joinBytes _ j)

/-- The trap writes on the stack page only (R265). -/
theorem State.read_enterTrap_off_stack_page (s : State) (ret : Addr) {addr : Addr} (h : hi8 addr ≠ Config.stackPage) :
    (s.enterTrap ret).read addr = s.read addr := by
  simp only [State.read_enterTrap, ne_stackAddr_of_hi8_ne h, if_false]

/-- The opcode of BRK is 00, and BRK reads no operand bytes (R91, R242). -/
theorem fetchInstr_of_zero_opcode {s : State} (h : s.read s.pc = 0) : fetchInstr s = some .brk := by
  rw [fetchInstr, fetchOpcode, h]
  rfl

theorem legalOpcode_of_zero_opcode {s : State} (h : s.read s.pc = 0) : legalOpcode s = true := by
  rw [legalOpcode, fetchOpcode, h]
  rfl

/-- The step on a zero byte at PC takes the trap. -/
theorem step_of_zero_opcode {s : State} (h : s.read s.pc = 0) : step s = .next (s.enterTrap (s.pc + 2)) :=
  step_of_fetch_some (fetchInstr_of_zero_opcode h)

theorem stepCycles_of_zero_opcode {s : State} (h : s.read s.pc = 0) : stepCycles s = 7 :=
  stepCycles_of_fetch_some (fetchInstr_of_zero_opcode h)

/-- A property that every step keeps holds of every state reached from one that has it. -/
theorem Reaches.keeps {P : State → Prop} (hstep : ∀ t u, P t → Machine.step t = .next u → P u) {s t : State}
    (h : Reaches s t) (hs : P s) : P t := by
  induction h with
  | refl => exact hs
  | step _ hu ih => exact hstep _ _ ih hu

/-- PC is 0, and so are the opcode there and the interrupt vector: the premise of R295. -/
def State.AtZeroTrap (s : State) : Prop :=
  s.pc = 0 ∧ s.read 0x0000 = 0 ∧ s.read 0xFFFE = 0 ∧ s.read 0xFFFF = 0

theorem State.AtZeroTrap.zero_opcode {s : State} (h : s.AtZeroTrap) : s.read s.pc = 0 := by
  obtain ⟨hpc, hopcode, -, -⟩ := h
  rw [hpc, hopcode]

/-- The vector is the word 0, and none of the three bytes is on the stack page. -/
theorem State.AtZeroTrap.enterTrap {s : State} (h : s.AtZeroTrap) (ret : Addr) : (s.enterTrap ret).AtZeroTrap := by
  obtain ⟨-, hopcode, hlow, hhigh⟩ := h
  have hvector : s.read16 Config.breakVector = joinBytes (s.read 0xFFFF) (s.read 0xFFFE) := rfl
  refine ⟨?pc, ?opcode, ?low, ?high⟩
  case pc =>
    rw [State.enterTrap_pc_before_pushes, hvector, hlow, hhigh]
    rfl
  case opcode => exact (s.read_enterTrap_off_stack_page ret (by decide)).trans hopcode
  case low => exact (s.read_enterTrap_off_stack_page ret (by decide)).trans hlow
  case high => exact (s.read_enterTrap_off_stack_page ret (by decide)).trans hhigh

/-- Every step keeps the premise of R295. -/
theorem State.AtZeroTrap.step {s t : State} (h : s.AtZeroTrap) (hs : Machine.step s = .next t) : t.AtZeroTrap := by
  cases (step_of_zero_opcode h.zero_opcode).symm.trans hs
  exact h.enterTrap _

end Sys2Proof.Machine
end

section
/-! PROOFS. The obligations about Reset and the hazards of zeroed memory (70_reset_and_hazards.md). -/

namespace Sys2Proof.Machine

/-- Settles O58: the step is a trap that keeps the premise, so the opcode is legal in every state of the run. -/
theorem zeroMemoryLoopsThroughTheTrap : Obligations.ZeroMemoryLoopsThroughTheTrap := by
  intro s hpc hopcode hlow hhigh
  have hs : s.AtZeroTrap := ⟨hpc, hopcode, hlow, hhigh⟩
  obtain ⟨hpc', hopcode', hlow', hhigh'⟩ := hs.enterTrap (s.pc + 2)
  have hsp : s.sp - 1 - 1 - 1 = s.sp - 3 := by bv_omega
  refine ⟨⟨s.enterTrap (s.pc + 2), step_of_zero_opcode hs.zero_opcode, stepCycles_of_zero_opcode hs.zero_opcode,
    hpc', hopcode', hlow', hhigh', hsp, rfl⟩, fun t ht => ?_⟩
  have hkept : t.AtZeroTrap := ht.keeps (fun _ _ => State.AtZeroTrap.step) hs
  exact legalOpcode_of_zero_opcode hkept.zero_opcode

/-- Settles O9: of the state before it, Reset sees the memory alone, and leaves it as it is. -/
theorem resetLeavesTheSpecState : Obligations.ResetLeavesTheSpecState := by
  intro resetS s
  refine ⟨_, rfl, rfl, rfl, rfl, rfl, ?flags, ?pc, rfl, ?sameMemory, rfl⟩
  case flags =>
    intro f
    cases f <;> rfl
  case pc =>
    rw [State.resetEntry_pc, State.read16, joinBytes_toNat, Nat.add_comm]
    rfl
  case sameMemory =>
    intro s' hmem
    simp only [State.resetEntry, State.read16, State.read_congr hmem, hmem]

end Sys2Proof.Machine
end
